-- ==== Sys2Proof/Word.lean ====
section
/-! DEFINITION. The block's plain data: bits and values (00_scope.md R7, R8), and the types of the decoded header
and of the output record (10_state.md R22, R23). -/

namespace Sys2Proof

/-- A sequence of bits in arrival order: index 0 is the bit that arrived first (R7). -/
abbrev Bits := List Bool

abbrev Byte := BitVec 8

/-- The enumeration of R48. -/
inductive FrameType where
  | beacon
  | data
  | ack
  | macCommand
  | unknown
  deriving DecidableEq, Repr

/-- The enumeration of R49. `noAddress` is the spec's member `None`, a present value (R23). -/
inductive AddrMode where
  | noAddress
  | short16
  | long64
  | unknown
  deriving DecidableEq, Repr

/-- "a width (16 or 64) and a value of that width, byte order already reversed" (R23). -/
inductive Address where
  | short16 (value : BitVec 16)
  | long64 (value : BitVec 64)
  deriving DecidableEq, Repr

/-- `DecodedHeader` of R23; `none` is the source's "empty value". -/
structure DecodedHeader where
  fcf : Option (BitVec 16)
  frameType : Option FrameType
  ackRequested : Option Bool
  destAddrMode : Option AddrMode
  srcAddrMode : Option AddrMode
  sequenceNumber : Option Byte
  panId : Option (BitVec 16)
  destAddress : Option Address
  srcAddress : Option Address
  deriving DecidableEq, Repr

/-- The header of a frame without one: every field empty (R23). -/
def DecodedHeader.empty : DecodedHeader where
  fcf := none
  frameType := none
  ackRequested := none
  destAddrMode := none
  srcAddrMode := none
  sequenceNumber := none
  panId := none
  destAddress := none
  srcAddress := none

/-- `FrameOut` of R22, with `hdrPresent`, which R18 keeps "in the record only". -/
structure FrameOut where
  syncBits : Bits
  lengthField : Bits
  L : Byte
  psdu : Bits
  hb : Bits
  hdrPresent : Bool
  header : DecodedHeader
  crcRx : BitVec 16
  crcCalc : BitVec 16
  crcValid : Bool
  totalBits : Nat
  deriving DecidableEq, Repr

end Sys2Proof
end

