-- ==== Sys2Proof/Machine/Bits.lean ====
section
/-! DEFINITION. Bit order and byte order (00_scope.md R7, R8; 20_memory.md R33, R34). -/

namespace Sys2Proof.Machine

/-- `s[a +: n]` (R7); `none` where the notation is not defined. -/
def slice (s : Bits) (a n : Nat) : Option Bits :=
  if a + n ≤ s.length then some ((s.drop a).take n) else none

/-- `s[a +: n]` at a place where `a + n ≤ len(s)` is known. -/
def sub (s : Bits) (a n : Nat) : Bits := (s.drop a).take n

/-- `be(s)`: most significant bit first (R8). -/
def be (s : Bits) : Nat := s.foldl (fun acc b => 2 * acc + b.toNat) 0

/-- `byte(s, i) = be(s[8*i +: 8])` (R8). -/
def byteAt (s : Bits) (i : Nat) : Nat := be (sub s (8 * i) 8)

/-- `rev(s, n)`: the first byte to arrive is the least significant (R8, R52). -/
def rev (s : Bits) : Nat → Nat
  | 0 => 0
  | n + 1 => rev s n + byteAt s n * 256 ^ n

/-- The bytes of a sequence in arrival order, each most significant bit first (R34, R53). -/
def bytesOf (s : Bits) : List Byte :=
  (List.range (s.length / 8)).map fun i => BitVec.ofNat 8 (byteAt s i)

/-- The bits of a value at a width, most significant first: the inverse of `be`. -/
def toBits (width value : Nat) : Bits :=
  (List.range width).map fun j => value.testBit (width - 1 - j)

/-- The bit sequence a byte list stands for (R57). -/
def bytesToBits (bytes : List Byte) : Bits := bytes.flatMap fun b => toBits 8 b.toNat

end Sys2Proof.Machine
end

