-- ==== Sys2Proof/Machine/Operands.lean ====
section
/-! DEFINITION. The fields of the data formats (30_encoding.md R45 to R52): where a header field lies, when it is
present, and what value it has. -/

namespace Sys2Proof.Machine

/-- Frame type (R48). -/
def frameTypeOf (fcf : BitVec 16) : FrameType :=
  match fcf.extractLsb' 0 3 with
  | 0b000#3 => .beacon
  | 0b001#3 => .data
  | 0b010#3 => .ack
  | 0b011#3 => .macCommand
  | _ => .unknown

/-- Acknowledge request: bit 5, 1 is true (R47). -/
def ackRequestOf (fcf : BitVec 16) : Bool := fcf.getLsbD 5

/-- The table of R49. -/
def addrModeOf (field : BitVec 2) : AddrMode :=
  match field with
  | 0b00#2 => .noAddress
  | 0b01#2 => .unknown
  | 0b10#2 => .short16
  | 0b11#2 => .long64

/-- Destination addressing mode: bits 11 and 10 (R47). -/
def destAddrModeOf (fcf : BitVec 16) : AddrMode := addrModeOf (fcf.extractLsb' 10 2)

/-- Source addressing mode: bits 15 and 14 (R47). -/
def srcAddrModeOf (fcf : BitVec 16) : AddrMode := addrModeOf (fcf.extractLsb' 14 2)

/-- Address width in bits (R50); an unknown mode takes no bits. -/
def modeWidth : AddrMode → Nat
  | .noAddress => 0
  | .short16 => 16
  | .long64 => 64
  | .unknown => 0

/-- `width(mode)`, "0 when the mode is none" (R95). -/
def width : Option AddrMode → Nat
  | none => 0
  | some m => modeWidth m

/-- The frame control field: the first 16 bits, bytes reversed (R46, R88). -/
def fcfOf (hb : Bits) : Option (BitVec 16) :=
  (slice hb 0 16).map fun f => BitVec.ofNat 16 (rev f 2)

/-- The sequence number: bits 16 to 23 (R93). -/
def sequenceNumberOf (hb : Bits) : Option Byte :=
  (slice hb 16 8).map fun f => BitVec.ofNat 8 (be f)

/-- The PAN ID: bits 24 to 39, bytes reversed (R94). -/
def panIdOf (hb : Bits) : Option (BitVec 16) :=
  (slice hb 24 16).map fun f => BitVec.ofNat 16 (rev f 2)

/-- An address of the given mode whose first bit is at offset `a`: present when all its bits lie in `hb` (R97). -/
def addressAt (hb : Bits) (a : Nat) (mode : Option AddrMode) : Option Address :=
  match mode with
  | some .short16 => (slice hb a 16).map fun f => .short16 (BitVec.ofNat 16 (rev f 2))
  | some .long64 => (slice hb a 64).map fun f => .long64 (BitVec.ofNat 64 (rev f 8))
  | some .noAddress => none
  | some .unknown => none
  | none => none

/-- R95: the destination address stands at bit 40. -/
def destAddressOf (hb : Bits) (destAddrMode : Option AddrMode) : Option Address := addressAt hb 40 destAddrMode

/-- R96: the source address stands right after the destination address's nominal width. -/
def srcAddressOf (hb : Bits) (destAddrMode srcAddrMode : Option AddrMode) : Option Address :=
  addressAt hb (40 + width destAddrMode) srcAddrMode

/-- header+body: `psdu` without its CRC field (R87). -/
def hbOf (psdu : Bits) (L : Byte) : Bits := sub psdu 0 (8 * L.toNat)

/-- The received checksum: the last 16 bits, no byte reversal (R102). -/
def crcRxOf (psdu : Bits) (L : Byte) : BitVec 16 := BitVec.ofNat 16 (be (sub psdu (8 * L.toNat) 16))

end Sys2Proof.Machine
end

