-- ==== Sys2Proof/Config.lean ====
section
/-! DEFINITION. The configuration, fixed at construction (00_scope.md R4, R5; 10_state.md R19). -/

namespace Sys2Proof

/-- The configuration registers of R19 and the buffer capacity `CAP` of R4 (`none` is infinity, its default). -/
structure Config where
  pattern : Bits
  threshold : Nat
  crcPoly : BitVec 16
  crcInit : BitVec 16
  crcXorOut : BitVec 16
  cap : Option Nat
  deriving DecidableEq, Repr

/-- `K = len(PATTERN)` (R4). -/
def Config.K (c : Config) : Nat := c.pattern.length

/-- `K ≥ 1`; `T` may be any natural number (R5). -/
abbrev Config.Legal (c : Config) : Prop := 1 ≤ c.K

/-- The three CRC registers hold the source's literals (R4, R19). -/
abbrev Config.SourceCrc (c : Config) : Prop :=
  c.crcPoly = 0x1021#16 ∧ c.crcInit = 0x1D0F#16 ∧ c.crcXorOut = 0xFFFF#16

/-- A configuration with the source's CRC literals and the default capacity. -/
def Config.make (pattern : Bits) (threshold : Nat) : Config where
  pattern := pattern
  threshold := threshold
  crcPoly := 0x1021#16
  crcInit := 0x1D0F#16
  crcXorOut := 0xFFFF#16
  cap := none

/-- `P16`, the only pattern the source ever shows (R4; 95_test_vectors.md). It is not called a default. -/
def Config.examplePattern : Bits :=
  [true, false, false, true, false, false, false, false, false, true, false, false, true, true, true, false]

/-- DESIGN CHOICE (assumption 1), unsafe: the configuration the reset state holds. The spec gives PATTERN and T no
reset value; a statement that is to hold of the hardware ranges over every configuration. -/
def Config.atReset : Config := Config.make Config.examplePattern 0

end Sys2Proof
end

