-- ==== Sys2Proof/Syntax.lean ====
section
/-! DEFINITION. One constructor for each row of spec/opcode_table.json: the 24 operations of 30_encoding.md R56 with
their operands, and the 15 rows of the value tables R48 and R49.

A value-table row is "the value of the 16-bit fcf that makes the named operation give this result": its constructor
carries the bits of `fcf` that the row leaves open, from the most significant part down. -/

namespace Sys2Proof

inductive Instr where
  -- bit_accumulator
  | append (bits : Bits)
  | consume (n : Nat)
  -- sync_correlator
  | corr
  | adv
  -- frame_length_decoder
  | len
  -- frame_slicer
  | chk
  | slice
  -- mac_header_bitfield_decoder
  | hb (psdu : Bits) (L : Byte)
  | fcf (hb : Bits)
  | ftype (fcf : Option (BitVec 16))
  | ackrq (fcf : Option (BitVec 16))
  | dam (fcf : Option (BitVec 16))
  | sam (fcf : Option (BitVec 16))
  | seq (hb : Bits)
  | pan (hb : Bits)
  | daddr (hb : Bits) (destAddrMode : Option AddrMode)
  | saddr (hb : Bits) (destAddrMode srcAddrMode : Option AddrMode)
  -- crc16_checker
  | crcrx (psdu : Bits) (L : Byte)
  | crc16 (lengthField : Bits) (hb : Bits)
  | crcchk (crcCalc crcRx : BitVec 16)
  -- sequencer
  | emit (record : FrameOut)
  | pass (bits : Bits)
  | start
  | stop
  -- FCF_value rows: fcf[2:0]
  | ftypeBeacon (hi : BitVec 13)
  | ftypeData (hi : BitVec 13)
  | ftypeAck (hi : BitVec 13)
  | ftypeMacCommand (hi : BitVec 13)
  | ftypeUnknown (hi : BitVec 13) (lo : BitVec 2)
  -- FCF_value rows: fcf[5]
  | ackrqFalse (hi : BitVec 10) (lo : BitVec 5)
  | ackrqTrue (hi : BitVec 10) (lo : BitVec 5)
  -- FCF_value rows: fcf[11:10]
  | damNone (hi : BitVec 4) (lo : BitVec 10)
  | damUnknown (hi : BitVec 4) (lo : BitVec 10)
  | damShort16 (hi : BitVec 4) (lo : BitVec 10)
  | damLong64 (hi : BitVec 4) (lo : BitVec 10)
  -- FCF_value rows: fcf[15:14]
  | samNone (lo : BitVec 14)
  | samUnknown (lo : BitVec 14)
  | samShort16 (lo : BitVec 14)
  | samLong64 (lo : BitVec 14)
  deriving DecidableEq, Repr

end Sys2Proof
end

