-- ==== Sys2Proof/WellFormed.lean ====
section
/-! DEFINITION. The operand shapes that spec/opcode_table.json gives each operation. -/

namespace Sys2Proof

open Sys2Proof.Machine (be)

/-- "operand: (L+2)*8 bits". -/
abbrev psduShape (psdu : Bits) (L : Byte) : Prop := psdu.length = (L.toNat + 2) * 8

/-- "operand: 8*L bits" for a declared length `0..255`. -/
abbrev hbShape (hb : Bits) : Prop := hb.length % 8 = 0 ∧ hb.length ≤ 8 * 255

/-- The shape of one `FrameOut` (R22), its header aside. -/
abbrev recordShape (r : FrameOut) : Prop :=
  r.lengthField.length = 8 ∧ psduShape r.psdu r.L ∧ r.hb = r.psdu.take (8 * r.L.toNat) ∧
  r.hdrPresent = decide (16 ≤ r.hb.length) ∧ r.crcValid = decide (r.crcCalc = r.crcRx) ∧
  r.totalBits = r.syncBits.length + 8 + (r.L.toNat + 2) * 8

/-- A record whose `L` is the value of its length bits (R22). -/
abbrev recordCoherent (r : FrameOut) : Prop := recordShape r ∧ r.L.toNat = be r.lengthField

/-- The operands have the shape the table gives them. Operations whose operands are bits, numbers or optional values of
any size, and the value-table rows, have no shape to check. -/
def Instr.wellFormed : Instr → Bool
  | .hb psdu L => decide (psduShape psdu L)
  | .crcrx psdu L => decide (psduShape psdu L)
  | .fcf hbits => decide (hbShape hbits)
  | .seq hbits => decide (hbShape hbits)
  | .pan hbits => decide (hbShape hbits)
  | .daddr hbits _ => decide (hbShape hbits)
  | .saddr hbits _ _ => decide (hbShape hbits)
  | .crc16 lengthField hbits => decide (lengthField.length = 8 ∧ hbits.length = 8 * be lengthField)
  | .emit record => decide (recordCoherent record)
  | .append _ | .consume _ | .corr | .adv | .len | .chk | .slice | .ftype _ | .ackrq _ | .dam _ | .sam _
  | .crcchk _ _ | .pass _ | .start | .stop | .ftypeBeacon _ | .ftypeData _ | .ftypeAck _ | .ftypeMacCommand _
  | .ftypeUnknown _ _ | .ackrqFalse _ _ | .ackrqTrue _ _ | .damNone _ _ | .damUnknown _ _ | .damShort16 _ _
  | .damLong64 _ _ | .samNone _ | .samUnknown _ | .samShort16 _ | .samLong64 _ => true

end Sys2Proof
end

