-- ==== Sys2Proof/Decode.lean ====
section
/-! DEFINITION. From issue slots to instructions and back (30_encoding.md R47, R48, R49, R56).

The spec gives an operation a 5-bit selector and says that operands "are arguments of the operation, not bits of the
selector"; no wire of the block carries either (assumption 2). An issue slot is therefore the selector's byte, or the
two bytes of an `fcf` value, beside named operand ports. -/

namespace Sys2Proof

/-- Which table of spec/opcode_table.json a slot's word is read by: the selectors of R56, or one of the four
`FCF_value` tables. The four examine different bits of one 16-bit word, so the word alone does not name its row. -/
inductive Table where
  | opsel
  | ftype
  | ackrq
  | dam
  | sam
  deriving DecidableEq, Repr

/-- The operand ports, by the names the table gives the operands. -/
structure OperandPorts where
  bits : Bits
  n : Nat
  psdu : Bits
  L : Byte
  hb : Bits
  fcf : Option (BitVec 16)
  destAddrMode : Option AddrMode
  srcAddrMode : Option AddrMode
  lengthField : Bits
  crcCalc : BitVec 16
  crcRx : BitVec 16
  record : FrameOut
  deriving DecidableEq, Repr

/-- The record of an all-zero frame with no sync bits: `L = 0`, eight zero length bits, sixteen zero CRC bits. -/
def zeroRecord : FrameOut where
  syncBits := []
  lengthField := List.replicate 8 false
  L := 0#8
  psdu := List.replicate 16 false
  hb := []
  hdrPresent := false
  header := DecodedHeader.empty
  crcRx := 0#16
  crcCalc := 0#16
  crcValid := true
  totalBits := 24

/-- Operand ports that hold zeros, each at the width the table gives it when `L = 0`. -/
def OperandPorts.zero : OperandPorts where
  bits := []
  n := 0
  psdu := List.replicate 16 false
  L := 0#8
  hb := []
  fcf := none
  destAddrMode := none
  srcAddrMode := none
  lengthField := List.replicate 8 false
  crcCalc := 0#16
  crcRx := 0#16
  record := zeroRecord

/-- One issued operation. The word's first byte stands first; an `fcf` word stands low byte first (R34). -/
structure Slot where
  table : Table
  word : List Byte
  args : OperandPorts
  deriving DecidableEq, Repr

/-- Why a slot names no instruction. -/
inductive DecodeError where
  /-- Selectors `11000` to `11111` name no operation (R56). -/
  | unassignedSelector (opsel : BitVec 5)
  /-- A selector has five bits; the byte that carries it holds a larger number. -/
  | selectorTooWide (byte : Byte)
  /-- A selector takes one byte, an `fcf` value two. -/
  | wrongLength (bytes : Nat)
  deriving DecidableEq, Repr

/-- R56's table. -/
def decodeOpsel (opsel : BitVec 5) (a : OperandPorts) : Except DecodeError Instr :=
  match opsel with
  | 0b00000#5 => .ok (.append a.bits)
  | 0b00001#5 => .ok (.consume a.n)
  | 0b00010#5 => .ok .corr
  | 0b00011#5 => .ok .adv
  | 0b00100#5 => .ok .len
  | 0b00101#5 => .ok .chk
  | 0b00110#5 => .ok .slice
  | 0b00111#5 => .ok (.hb a.psdu a.L)
  | 0b01000#5 => .ok (.fcf a.hb)
  | 0b01001#5 => .ok (.ftype a.fcf)
  | 0b01010#5 => .ok (.ackrq a.fcf)
  | 0b01011#5 => .ok (.dam a.fcf)
  | 0b01100#5 => .ok (.sam a.fcf)
  | 0b01101#5 => .ok (.seq a.hb)
  | 0b01110#5 => .ok (.pan a.hb)
  | 0b01111#5 => .ok (.daddr a.hb a.destAddrMode)
  | 0b10000#5 => .ok (.saddr a.hb a.destAddrMode a.srcAddrMode)
  | 0b10001#5 => .ok (.crcrx a.psdu a.L)
  | 0b10010#5 => .ok (.crc16 a.lengthField a.hb)
  | 0b10011#5 => .ok (.crcchk a.crcCalc a.crcRx)
  | 0b10100#5 => .ok (.emit a.record)
  | 0b10101#5 => .ok (.pass a.bits)
  | 0b10110#5 => .ok .start
  | 0b10111#5 => .ok .stop
  | other => .error (.unassignedSelector other)

/-- The row of table FTYPE that an `fcf` value meets (R48): bits 2 to 0. -/
def decodeFtype (fcf : BitVec 16) : Instr :=
  match fcf.extractLsb' 0 3 with
  | 0b000#3 => .ftypeBeacon (fcf.extractLsb' 3 13)
  | 0b001#3 => .ftypeData (fcf.extractLsb' 3 13)
  | 0b010#3 => .ftypeAck (fcf.extractLsb' 3 13)
  | 0b011#3 => .ftypeMacCommand (fcf.extractLsb' 3 13)
  | _ => .ftypeUnknown (fcf.extractLsb' 3 13) (fcf.extractLsb' 0 2)

/-- The row of table ACKRQ (R47): bit 5. -/
def decodeAckrq (fcf : BitVec 16) : Instr :=
  match fcf.getLsbD 5 with
  | false => .ackrqFalse (fcf.extractLsb' 6 10) (fcf.extractLsb' 0 5)
  | true => .ackrqTrue (fcf.extractLsb' 6 10) (fcf.extractLsb' 0 5)

/-- The row of table DAM (R49): bits 11 and 10. -/
def decodeDam (fcf : BitVec 16) : Instr :=
  match fcf.extractLsb' 10 2 with
  | 0b00#2 => .damNone (fcf.extractLsb' 12 4) (fcf.extractLsb' 0 10)
  | 0b01#2 => .damUnknown (fcf.extractLsb' 12 4) (fcf.extractLsb' 0 10)
  | 0b10#2 => .damShort16 (fcf.extractLsb' 12 4) (fcf.extractLsb' 0 10)
  | 0b11#2 => .damLong64 (fcf.extractLsb' 12 4) (fcf.extractLsb' 0 10)

/-- The row of table SAM (R49): bits 15 and 14. -/
def decodeSam (fcf : BitVec 16) : Instr :=
  match fcf.extractLsb' 14 2 with
  | 0b00#2 => .samNone (fcf.extractLsb' 0 14)
  | 0b01#2 => .samUnknown (fcf.extractLsb' 0 14)
  | 0b10#2 => .samShort16 (fcf.extractLsb' 0 14)
  | 0b11#2 => .samLong64 (fcf.extractLsb' 0 14)

/-- An `fcf` value from its two bytes in arrival order: "wire transmits least-significant byte first" (R34). -/
def fcfOfBytes (low high : Byte) : BitVec 16 := high ++ low

/-- Total: every slot is an instruction or is refused by name. -/
def decode (slot : Slot) : Except DecodeError Instr :=
  match slot.table, slot.word with
  | .opsel, [b] => if b.toNat < 32 then decodeOpsel (b.extractLsb' 0 5) slot.args else .error (.selectorTooWide b)
  | .ftype, [low, high] => .ok (decodeFtype (fcfOfBytes low high))
  | .ackrq, [low, high] => .ok (decodeAckrq (fcfOfBytes low high))
  | .dam, [low, high] => .ok (decodeDam (fcfOfBytes low high))
  | .sam, [low, high] => .ok (decodeSam (fcfOfBytes low high))
  | _, word => .error (.wrongLength word.length)

/-- A slot that carries a selector. -/
def opselSlot (opsel : BitVec 5) (args : OperandPorts) : Slot where
  table := .opsel
  word := [opsel.zeroExtend 8]
  args := args

/-- A slot that carries an `fcf` value for one of the four value tables. -/
def fcfSlot (table : Table) (fcf : BitVec 16) : Slot where
  table := table
  word := [fcf.extractLsb' 0 8, fcf.extractLsb' 8 8]
  args := .zero

/-- The slot of an instruction: its selector and operands (R56), or its `fcf` value (R47 to R49). -/
def encode : Instr → Slot
  | .append bits => opselSlot 0b00000#5 { OperandPorts.zero with bits := bits }
  | .consume n => opselSlot 0b00001#5 { OperandPorts.zero with n := n }
  | .corr => opselSlot 0b00010#5 .zero
  | .adv => opselSlot 0b00011#5 .zero
  | .len => opselSlot 0b00100#5 .zero
  | .chk => opselSlot 0b00101#5 .zero
  | .slice => opselSlot 0b00110#5 .zero
  | .hb psdu L => opselSlot 0b00111#5 { OperandPorts.zero with psdu := psdu, L := L }
  | .fcf hb => opselSlot 0b01000#5 { OperandPorts.zero with hb := hb }
  | .ftype fcf => opselSlot 0b01001#5 { OperandPorts.zero with fcf := fcf }
  | .ackrq fcf => opselSlot 0b01010#5 { OperandPorts.zero with fcf := fcf }
  | .dam fcf => opselSlot 0b01011#5 { OperandPorts.zero with fcf := fcf }
  | .sam fcf => opselSlot 0b01100#5 { OperandPorts.zero with fcf := fcf }
  | .seq hb => opselSlot 0b01101#5 { OperandPorts.zero with hb := hb }
  | .pan hb => opselSlot 0b01110#5 { OperandPorts.zero with hb := hb }
  | .daddr hb dm => opselSlot 0b01111#5 { OperandPorts.zero with hb := hb, destAddrMode := dm }
  | .saddr hb dm sm =>
      opselSlot 0b10000#5 { OperandPorts.zero with hb := hb, destAddrMode := dm, srcAddrMode := sm }
  | .crcrx psdu L => opselSlot 0b10001#5 { OperandPorts.zero with psdu := psdu, L := L }
  | .crc16 lengthField hb => opselSlot 0b10010#5 { OperandPorts.zero with lengthField := lengthField, hb := hb }
  | .crcchk crcCalc crcRx => opselSlot 0b10011#5 { OperandPorts.zero with crcCalc := crcCalc, crcRx := crcRx }
  | .emit record => opselSlot 0b10100#5 { OperandPorts.zero with record := record }
  | .pass bits => opselSlot 0b10101#5 { OperandPorts.zero with bits := bits }
  | .start => opselSlot 0b10110#5 .zero
  | .stop => opselSlot 0b10111#5 .zero
  | .ftypeBeacon hi => fcfSlot .ftype (hi ++ 0b000#3)
  | .ftypeData hi => fcfSlot .ftype (hi ++ 0b001#3)
  | .ftypeAck hi => fcfSlot .ftype (hi ++ 0b010#3)
  | .ftypeMacCommand hi => fcfSlot .ftype (hi ++ 0b011#3)
  | .ftypeUnknown hi lo => fcfSlot .ftype (hi ++ 0b1#1 ++ lo)
  | .ackrqFalse hi lo => fcfSlot .ackrq (hi ++ 0b0#1 ++ lo)
  | .ackrqTrue hi lo => fcfSlot .ackrq (hi ++ 0b1#1 ++ lo)
  | .damNone hi lo => fcfSlot .dam (hi ++ 0b00#2 ++ lo)
  | .damUnknown hi lo => fcfSlot .dam (hi ++ 0b01#2 ++ lo)
  | .damShort16 hi lo => fcfSlot .dam (hi ++ 0b10#2 ++ lo)
  | .damLong64 hi lo => fcfSlot .dam (hi ++ 0b11#2 ++ lo)
  | .samNone lo => fcfSlot .sam (0b00#2 ++ lo)
  | .samUnknown lo => fcfSlot .sam (0b01#2 ++ lo)
  | .samShort16 lo => fcfSlot .sam (0b10#2 ++ lo)
  | .samLong64 lo => fcfSlot .sam (0b11#2 ++ lo)

/-- DESIGN CHOICE (assumption 3): the value table a bare 16-bit word is read by, where nothing names one. The tables
examine disjoint bits; the highest table whose examined bits are not all 0 reads the word, FTYPE if there is none. -/
def tableOfFcf (fcf : BitVec 16) : Table :=
  if fcf.extractLsb' 14 2 ≠ 0b00#2 then .sam
  else if fcf.extractLsb' 10 2 ≠ 0b00#2 then .dam
  else if fcf.getLsbD 5 then .ackrq
  else .ftype

/-- The slot of a table word and operand ports of zeros: up to 8 bits are a selector, more an `fcf` value. -/
def slotOfTableWord (nbits w : Nat) : Slot :=
  if nbits ≤ 8 then
    { table := .opsel, word := [BitVec.ofNat 8 w], args := .zero }
  else
    fcfSlot (tableOfFcf (BitVec.ofNat 16 w)) (BitVec.ofNat 16 w)

/-- The instruction the decoder reads from a word of spec/opcode_table.json. -/
def decodeTableWord (nbits w : Nat) : Option Instr :=
  match decode (slotOfTableWord nbits w) with
  | .ok i => some i
  | .error _ => none

end Sys2Proof
end

