-- ==== Sys2Proof/Machine/State.lean ====
section
/-! DEFINITION. The whole state of the block (10_state.md R10 to R16), its configuration registers (R19), the ports at
its boundary (60_exceptions.md R131 to R134), and the reset state (R26). -/

namespace Sys2Proof.Machine

/-- `phase` (R14). -/
inductive Phase where
  /-- `SEARCH`: no sync is pending, the correlator acts. -/
  | search
  /-- `LEN`: a match was declared at `scan`, the length decoder acts. -/
  | len
  /-- `BODY`: the length is known, the slicer acts. -/
  | body
  deriving DecidableEq, Repr

/-- The five conditions of R119. None is a trap and no signal of the block carries them. -/
inductive Condition where
  /-- X1, transient framing mismatch, noted by CORR (R120). -/
  | x1
  /-- X2, incomplete frame, noted by CHK and by the waits of SEARCH and LEN (R121). -/
  | x2
  /-- X3, checksum mismatch, noted by CRCCHK (R122). -/
  | x3
  /-- X4, persistence failure: arises outside the block and never reaches it (R123). -/
  | x4
  /-- X5, malformed header, noted by HB, SEQ, PAN, DADDR and SADDR (R124). -/
  | x5
  deriving DecidableEq, Repr

/-- One input at the block's boundary, in order of arrival. -/
inductive Input where
  /-- An ingest call on port `in` (R110, R131). -/
  | ingest (bits : Bits)
  /-- An operation by its selector: START and STOP from lifecycle control (R134); the others by assumption 2. -/
  | issue (slot : Slot)
  deriving DecidableEq, Repr

/-- Why the machine stops with a fault. It has no constructor, because no condition of the block is a trap or is
fatal (R119, R127) and no access leaves the buffer (R35): nobody raises a fault, which is what the spec says (safe). -/
inductive Fault where
  deriving DecidableEq, Repr

/-- Why the model gives a step no meaning. -/
inductive Refusal where
  /-- Raised by `exec` for an instruction that has no meaning yet. Safe: the machine stops. -/
  | notModelled (mnemonic : String)
  /-- Raised by the fetch of a slot that names no operation (R56). Safe: the machine stops. -/
  | undecodable (reason : DecodeError)
  /-- Raised by the fetch of an operation whose operands do not have the table's shape, to which no rule applies.
  Safe: the machine stops. -/
  | illFormedOperands
  /-- Raised by APPEND, alone or inside INGEST, when the chunk does not fit a finite `CAP` (93_implementation_defined.md
  U2: "treat as refuse"). Safe: the machine stops. -/
  | bufferFull
  deriving DecidableEq, Repr

structure State where
  /-- The configuration: no step changes it (R19, R40). -/
  cfg : Config
  /-- `buf`, the bit buffer, oldest bit first (R11). -/
  buf : Bits
  /-- `scan`, an offset into `buf` (R13). -/
  scan : Nat
  /-- `phase` (R14). -/
  phase : Phase
  /-- `Lreg`, the declared length of the pending frame (R15). -/
  lreg : Option Byte
  /-- `total`, the pending frame's `totalBits` (R16). -/
  total : Option Nat
  /-- `run`: the block is started and accepts INGEST (R10). -/
  run : Bool
  /-- The model's own (assumption 4): the last value of the transient signal `match` of R18. -/
  matchSig : Bool
  /-- The model's own (assumption 4): the last value of the transient signal `complete` of R18. -/
  completeSig : Bool
  /-- The model's own (assumption 5): where header and CRC operations issued one at a time write record fields. -/
  draft : FrameOut
  /-- The model's own (assumption 6): the inputs still to come, the next one first. -/
  inp : List Input
  /-- Port `out`: the records emitted so far, oldest first (R117). -/
  out : List FrameOut
  /-- Port `pt`: the chunks passed through so far, oldest first (R118). -/
  pt : List Bits
  /-- The model's own (assumption 7): the conditions noted so far, which no operation reads. -/
  notes : List Condition
  /-- The model's own (assumption 8): inputs given to a stopped block, which it refused (R110, R115). -/
  turnedAway : List Input
  deriving DecidableEq, Repr

/-- What the unlisted addresses of the buffer read as does not arise: an address is below `len(buf)` or does not exist
(R30). The one form a buffer can have: its length lies in `0..CAP` (R10). -/
def Memory.wf (cap : Option Nat) (buf : Bits) : Bool :=
  match cap with
  | none => true
  | some c => decide (buf.length ≤ c)

/-- The draft record at reset (DESIGN CHOICE, assumption 5). -/
def emptyDraft : FrameOut where
  syncBits := []
  lengthField := []
  L := 0#8
  psdu := []
  hb := []
  hdrPresent := false
  header := DecodedHeader.empty
  crcRx := 0#16
  crcCalc := 0#16
  crcValid := false
  totalBits := 0

/-- After construction and START (R26, R135), with the configuration of assumption 1, no input waiting and nothing yet
at the output ports. -/
def State.reset : State where
  cfg := Config.atReset
  buf := []
  scan := 0
  phase := .search
  lreg := none
  total := none
  run := true
  matchSig := false
  completeSig := false
  draft := emptyDraft
  inp := []
  out := []
  pt := []
  notes := []
  turnedAway := []

end Sys2Proof.Machine
end

