-- ==== Sys2Proof/Machine/Ops.lean ====
section
/-! DEFINITION. The named operations over the bit buffer, the sequencing state and the ports (00_scope.md R9).

The block has no trap entry and no trap return (60_exceptions.md R127, R128): what stands in their place is `note`,
which records a condition and does nothing else. -/

namespace Sys2Proof.Machine

/-- `note X<n>` (R9, R119). -/
def State.note (conditions : List Condition) (s : State) : State := { s with notes := s.notes ++ conditions }

/-- `live = len(buf) - scan` (R108). -/
def State.live (s : State) : Nat := s.buf.length - s.scan

/-- `MemRead(addr, n)` (R9): `none` where an access would leave the buffer, which no operation makes (R35). -/
def State.memRead (s : State) (addr n : Nat) : Option Bits := slice s.buf addr n

/-- The chunk fits the buffer's capacity (R43; always, with the default `CAP`). -/
def State.fits (s : State) (bits : Bits) : Bool := Memory.wf s.cfg.cap (s.buf ++ bits)

/-- `buf <- buf ++ bits` (R65). -/
def State.appendBits (bits : Bits) (s : State) : State := { s with buf := s.buf ++ bits }

/-- R66, with the adjustment of `scan` that a model which exposes CONSUME alone must make. -/
def State.consumeBits (n : Nat) (s : State) : State :=
  { s with
    buf := s.buf.drop (min n s.buf.length)
    scan := s.scan - min s.scan (min n s.buf.length) }

/-- `scan <- scan + 1` (R71). -/
def State.advance (s : State) : State := { s with scan := s.scan + 1 }

/-- `totalBits = K + 8 + (L + 2) * 8` (R77, R78). -/
def frameBits (K : Nat) (L : Byte) : Nat := K + 8 + (L.toNat + 2) * 8

/-- `emit(rec)` (R9, R117). -/
def State.emitRecord (r : FrameOut) (s : State) : State := { s with out := s.out ++ [r] }

/-- `pt_out <- bits` (R118). -/
def State.passBits (bits : Bits) (s : State) : State := { s with pt := s.pt ++ [bits] }

/-- The reset values of R114 and R26; no signal or draft of the model's own survives it (R135). -/
def State.started (s : State) : State :=
  { s with
    buf := []
    scan := 0
    phase := .search
    lreg := none
    total := none
    run := true
    matchSig := false
    completeSig := false
    draft := emptyDraft }

/-- `run <- false` (R115). -/
def State.stopped (s : State) : State := { s with run := false }

/-- An input refused by a stopped block: no state of the block changes and nothing is output (R110, R115). -/
def State.turnAway (input : Input) (s : State) : State := { s with turnedAway := s.turnedAway ++ [input] }

/-- A record field written by an operation issued alone. -/
def State.setDraft (f : FrameOut) (s : State) : State := { s with draft := f }

/-- A header field written by an operation issued alone. -/
def State.setHeader (h : DecodedHeader) (s : State) : State := { s with draft := { s.draft with header := h } }

end Sys2Proof.Machine
end

