-- ==== Sys2Proof/Machine/Flags.lean ====
section
/-! DEFINITION. The four status signals of 10_state.md R18 and the conditions that go with them (60_exceptions.md). -/

namespace Sys2Proof.Machine

/-- `d`: the number of positions at which a window differs from the pattern (R70). -/
def mismatches (window pattern : Bits) : Nat := (List.zipWith (fun w p => w ^^ p) window pattern).count true

/-- `match`: at most `T` mismatches (R70). -/
def windowMatches (c : Config) (window : Bits) : Bool := decide (mismatches window c.pattern ≤ c.threshold)

/-- `match` at an offset; `none` where no whole window is held. -/
def State.matchAt (s : State) (offset : Nat) : Option Bool :=
  (s.memRead offset s.cfg.K).map (windowMatches s.cfg)

/-- `complete`: the whole pending frame is held (R81); `none` outside phase BODY, where CHK is not enabled. -/
def State.complete? (s : State) : Option Bool :=
  match s.phase, s.total with
  | .body, some t => some (decide (t ≤ s.live))
  | _, _ => none

/-- `hdrPresent`: the FCF exists (R87). -/
def hdrPresentOf (hb : Bits) : Bool := decide (16 ≤ hb.length)

/-- `crcValid` (R104). -/
def crcValidOf (crcCalc crcRx : BitVec 16) : Bool := decide (crcCalc = crcRx)

/-- X5 when a field that ends at bit `last` of `hb` does not fit (R97, R124). -/
def missing (hb : Bits) (last : Nat) : List Condition := if last ≤ hb.length then [] else [.x5]

/-- X5 for an address: only a mode that announces an address can miss one (R95, R96). -/
def missingAddress (hb : Bits) (a : Nat) (mode : Option AddrMode) : List Condition :=
  if width mode = 0 then [] else missing hb (a + width mode)

/-- X3 when the checksums differ (R104, R122). -/
def checksumNote (crcCalc crcRx : BitVec 16) : List Condition := if crcValidOf crcCalc crcRx then [] else [.x3]

end Sys2Proof.Machine
end

