-- ==== Sys2Proof/Machine/Accumulator.lean ====
section
/-! DEFINITION. The bit_accumulator sub-block (40_bit_accumulator.md): APPEND and CONSUME. -/

namespace Sys2Proof.Machine

/-- APPEND (R65); a chunk that a finite `CAP` cannot hold is refused (93_implementation_defined.md U2). -/
def execAppend (bits : Bits) (s : State) : Host.Outcome State Fault Refusal :=
  if s.fits bits then .next (s.appendBits bits) else .refused .bufferFull

/-- CONSUME issued alone (R66). -/
def execConsume (n : Nat) (s : State) : Host.Outcome State Fault Refusal := .next (s.consumeBits n)

end Sys2Proof.Machine
end

