-- ==== Sys2Proof/Machine/Correlator.lean ====
section
/-! DEFINITION. The sync_correlator sub-block (41_sync_correlator.md): CORR, ADV and the pseudo-operation SCAN. -/

namespace Sys2Proof.Machine

/-- CORR is enabled (R70). -/
abbrev State.corrEnabled (s : State) : Prop := s.phase = .search ∧ s.cfg.K ≤ s.live

/-- CORR with the window's answer known: on a match `phase <- LEN`, else X1 (R70). -/
def State.correlated (isMatch : Bool) (s : State) : State :=
  match isMatch with
  | true => { s with phase := .len, matchSig := true }
  | false => { s.note [.x1] with matchSig := false }

/-- CORR (R70). Where it is not enabled the answer is "no match yet" and it waits: X2 in SEARCH (R121). -/
def State.corr (s : State) : State :=
  if s.phase = .search then
    match s.matchAt s.scan with
    | some isMatch => s.correlated isMatch
    | none => s.note [.x2]
  else s

/-- ADV (R71) is issued "immediately after a CORR that gave `match = false`, and in no other case": it is enabled where
CORR at this state answers so, and waits elsewhere (assumption 9). -/
def State.adv (s : State) : State :=
  if s.phase = .search ∧ s.matchAt s.scan = some false then s.advance else s

/-- CORR, and ADV in the same step on a mismatch (R108). -/
def State.corrAdv (s : State) : State :=
  if s.corr.matchSig then s.corr else s.corr.adv

def execCorr (s : State) : Host.Outcome State Fault Refusal := .next s.corr

def execAdv (s : State) : Host.Outcome State Fault Refusal := .next s.adv

/-- SCAN (R72), bounded by the number of windows left. -/
def scanFor : Nat → State → State
  | 0, s => s
  | fuel + 1, s => if s.phase = .search ∧ s.cfg.K ≤ s.live then scanFor fuel s.corrAdv else s

/-- The pseudo-operation SCAN: CORR and ADV until a match or until no window is left (R72). -/
def State.scanAll (s : State) : State := scanFor (s.live + 1) s

end Sys2Proof.Machine
end

