-- ==== Sys2Proof/Machine/Crc.lean ====
section
/-! DEFINITION. The crc16_checker sub-block (45_crc16_checker.md). The algorithm's steps are the spec's own
(PRESUMED there: 93_implementation_defined.md G1, assumption 10). -/

namespace Sys2Proof.Machine

/-- One shift of the CRC register (R103). -/
def crcShift (poly crc : BitVec 16) : BitVec 16 :=
  if crc.getLsbD 15 then (crc <<< 1) ^^^ poly else crc <<< 1

/-- "repeat 8 times" (R103). -/
def crcShifts (poly : BitVec 16) : Nat → BitVec 16 → BitVec 16
  | 0, crc => crc
  | n + 1, crc => crcShifts poly n (crcShift poly crc)

/-- One byte: XORed into the high byte, then eight shifts (R103). -/
def crcByte (poly crc : BitVec 16) (x : Byte) : BitVec 16 :=
  crcShifts poly 8 (crc ^^^ (x.zeroExtend 16 <<< 8))

/-- `crcCalc` of a message (R103). -/
def crcOfBytes (c : Config) (msg : List Byte) : BitVec 16 :=
  msg.foldl (crcByte c.crcPoly) c.crcInit ^^^ c.crcXorOut

/-- The message: the length byte "reconstructed from `L`", then the bytes of `hb` (R103). -/
def crcMessage (lengthField hb : Bits) : List Byte := BitVec.ofNat 8 (be lengthField) :: bytesOf hb

/-- `crcCalc` of a frame (R103). -/
def crcCalcOf (c : Config) (lengthField hb : Bits) : BitVec 16 := crcOfBytes c (crcMessage lengthField hb)

/-- One bit of the bit-serial form (R105). -/
def crcBit (poly crc : BitVec 16) (b : Bool) : BitVec 16 :=
  if crc.getLsbD 15 ^^ b then (crc <<< 1) ^^^ poly else crc <<< 1

/-- The bit-serial form over the received bits (R105). -/
def crcOfBits (c : Config) (m : Bits) : BitVec 16 := m.foldl (crcBit c.crcPoly) c.crcInit ^^^ c.crcXorOut

/-- CRCRX (R102). -/
def execCrcrx (psdu : Bits) (L : Byte) (s : State) : Host.Outcome State Fault Refusal :=
  .next (s.setDraft { s.draft with crcRx := crcRxOf psdu L })

/-- CRC16 (R103). -/
def execCrc16 (lengthField hb : Bits) (s : State) : Host.Outcome State Fault Refusal :=
  .next (s.setDraft { s.draft with crcCalc := crcCalcOf s.cfg lengthField hb })

/-- CRCCHK (R104): X3 when they differ; nothing is dropped. -/
def execCrcchk (crcCalc crcRx : BitVec 16) (s : State) : Host.Outcome State Fault Refusal :=
  .next ((s.setDraft { s.draft with crcValid := crcValidOf crcCalc crcRx }).note (checksumNote crcCalc crcRx))

end Sys2Proof.Machine
end

