-- ==== Sys2Proof/Machine/Header.lean ====
section
/-! DEFINITION. The mac_header_bitfield_decoder sub-block (44_mac_header_decoder.md). An operation issued alone writes
its record fields into the draft record (assumption 5). -/

namespace Sys2Proof.Machine

/-- HB (R87): notes X5 when no FCF fits. -/
def execHb (psdu : Bits) (L : Byte) (s : State) : Host.Outcome State Fault Refusal :=
  .next (((s.setDraft { s.draft with hb := hbOf psdu L, hdrPresent := hdrPresentOf (hbOf psdu L) })).note
    (missing (hbOf psdu L) 16))

/-- FCF (R88). -/
def execFcf (hb : Bits) (s : State) : Host.Outcome State Fault Refusal :=
  .next (s.setHeader { s.draft.header with fcf := fcfOf hb })

/-- The effect FTYPE has for a given `fcf` (R89). -/
def State.writeFrameType (fcf : Option (BitVec 16)) (s : State) : State :=
  s.setHeader { s.draft.header with frameType := fcf.map frameTypeOf }

/-- The effect ACKRQ has for a given `fcf` (R90). -/
def State.writeAckRequested (fcf : Option (BitVec 16)) (s : State) : State :=
  s.setHeader { s.draft.header with ackRequested := fcf.map ackRequestOf }

/-- The effect DAM has for a given `fcf` (R91). -/
def State.writeDestAddrMode (fcf : Option (BitVec 16)) (s : State) : State :=
  s.setHeader { s.draft.header with destAddrMode := fcf.map destAddrModeOf }

/-- The effect SAM has for a given `fcf` (R92). -/
def State.writeSrcAddrMode (fcf : Option (BitVec 16)) (s : State) : State :=
  s.setHeader { s.draft.header with srcAddrMode := fcf.map srcAddrModeOf }

def execFtype (fcf : Option (BitVec 16)) (s : State) : Host.Outcome State Fault Refusal := .next (s.writeFrameType fcf)

def execAckrq (fcf : Option (BitVec 16)) (s : State) : Host.Outcome State Fault Refusal :=
  .next (s.writeAckRequested fcf)

def execDam (fcf : Option (BitVec 16)) (s : State) : Host.Outcome State Fault Refusal :=
  .next (s.writeDestAddrMode fcf)

def execSam (fcf : Option (BitVec 16)) (s : State) : Host.Outcome State Fault Refusal :=
  .next (s.writeSrcAddrMode fcf)

/-- SEQ (R93): notes X5 when the field does not fit. -/
def execSeq (hb : Bits) (s : State) : Host.Outcome State Fault Refusal :=
  .next ((s.setHeader { s.draft.header with sequenceNumber := sequenceNumberOf hb }).note (missing hb 24))

/-- PAN (R94). -/
def execPan (hb : Bits) (s : State) : Host.Outcome State Fault Refusal :=
  .next ((s.setHeader { s.draft.header with panId := panIdOf hb }).note (missing hb 40))

/-- DADDR (R95). -/
def execDaddr (hb : Bits) (destAddrMode : Option AddrMode) (s : State) : Host.Outcome State Fault Refusal :=
  .next ((s.setHeader { s.draft.header with destAddress := destAddressOf hb destAddrMode }).note
    (missingAddress hb 40 destAddrMode))

/-- SADDR (R96). -/
def execSaddr (hb : Bits) (destAddrMode srcAddrMode : Option AddrMode) (s : State) :
    Host.Outcome State Fault Refusal :=
  .next ((s.setHeader { s.draft.header with srcAddress := srcAddressOf hb destAddrMode srcAddrMode }).note
    (missingAddress hb (40 + width destAddrMode) srcAddrMode))

/-- The header of a header+body: FCF, FTYPE, ACKRQ, DAM, SAM, SEQ, PAN, DADDR, SADDR together (R98). -/
def headerOf (hb : Bits) : DecodedHeader where
  fcf := fcfOf hb
  frameType := (fcfOf hb).map frameTypeOf
  ackRequested := (fcfOf hb).map ackRequestOf
  destAddrMode := (fcfOf hb).map destAddrModeOf
  srcAddrMode := (fcfOf hb).map srcAddrModeOf
  sequenceNumber := sequenceNumberOf hb
  panId := panIdOf hb
  destAddress := destAddressOf hb ((fcfOf hb).map destAddrModeOf)
  srcAddress := srcAddressOf hb ((fcfOf hb).map destAddrModeOf) ((fcfOf hb).map srcAddrModeOf)

/-- The pseudo-operation HDR (R98), a function of (`psdu`, `L`) alone (R99). -/
def hdr (psdu : Bits) (L : Byte) : DecodedHeader := headerOf (hbOf psdu L)

/-- The conditions HDR notes, one for each operation whose field does not fit, in the order of R98. -/
def headerNotes (hb : Bits) : List Condition :=
  missing hb 16 ++ missing hb 24 ++ missing hb 40 ++
  missingAddress hb 40 ((fcfOf hb).map destAddrModeOf) ++
  missingAddress hb (40 + width ((fcfOf hb).map destAddrModeOf)) ((fcfOf hb).map srcAddrModeOf)

end Sys2Proof.Machine
end

