-- ==== Sys2Proof/Machine/FcfTables.lean ====
section
/-! DEFINITION. The 15 `FCF_value` rows of spec/opcode_table.json. A row is "the value of the 16-bit fcf that makes the
named operation give this result": its meaning is the named operation on that value (assumption 3). -/

namespace Sys2Proof.Machine

def execFtypeBeacon (hi : BitVec 13) (s : State) : Host.Outcome State Fault Refusal :=
  .next (s.writeFrameType (some (hi ++ 0b000#3)))

def execFtypeData (hi : BitVec 13) (s : State) : Host.Outcome State Fault Refusal :=
  .next (s.writeFrameType (some (hi ++ 0b001#3)))

def execFtypeAck (hi : BitVec 13) (s : State) : Host.Outcome State Fault Refusal :=
  .next (s.writeFrameType (some (hi ++ 0b010#3)))

def execFtypeMacCommand (hi : BitVec 13) (s : State) : Host.Outcome State Fault Refusal :=
  .next (s.writeFrameType (some (hi ++ 0b011#3)))

def execFtypeUnknown (hi : BitVec 13) (lo : BitVec 2) (s : State) : Host.Outcome State Fault Refusal :=
  .next (s.writeFrameType (some (hi ++ 0b1#1 ++ lo)))

def execAckrqFalse (hi : BitVec 10) (lo : BitVec 5) (s : State) : Host.Outcome State Fault Refusal :=
  .next (s.writeAckRequested (some (hi ++ 0b0#1 ++ lo)))

def execAckrqTrue (hi : BitVec 10) (lo : BitVec 5) (s : State) : Host.Outcome State Fault Refusal :=
  .next (s.writeAckRequested (some (hi ++ 0b1#1 ++ lo)))

def execDamNone (hi : BitVec 4) (lo : BitVec 10) (s : State) : Host.Outcome State Fault Refusal :=
  .next (s.writeDestAddrMode (some (hi ++ 0b00#2 ++ lo)))

def execDamUnknown (hi : BitVec 4) (lo : BitVec 10) (s : State) : Host.Outcome State Fault Refusal :=
  .next (s.writeDestAddrMode (some (hi ++ 0b01#2 ++ lo)))

def execDamShort16 (hi : BitVec 4) (lo : BitVec 10) (s : State) : Host.Outcome State Fault Refusal :=
  .next (s.writeDestAddrMode (some (hi ++ 0b10#2 ++ lo)))

def execDamLong64 (hi : BitVec 4) (lo : BitVec 10) (s : State) : Host.Outcome State Fault Refusal :=
  .next (s.writeDestAddrMode (some (hi ++ 0b11#2 ++ lo)))

def execSamNone (lo : BitVec 14) (s : State) : Host.Outcome State Fault Refusal :=
  .next (s.writeSrcAddrMode (some (0b00#2 ++ lo)))

def execSamUnknown (lo : BitVec 14) (s : State) : Host.Outcome State Fault Refusal :=
  .next (s.writeSrcAddrMode (some (0b01#2 ++ lo)))

def execSamShort16 (lo : BitVec 14) (s : State) : Host.Outcome State Fault Refusal :=
  .next (s.writeSrcAddrMode (some (0b10#2 ++ lo)))

def execSamLong64 (lo : BitVec 14) (s : State) : Host.Outcome State Fault Refusal :=
  .next (s.writeSrcAddrMode (some (0b11#2 ++ lo)))

end Sys2Proof.Machine
end

