-- ==== Sys2Proof/Machine/Length.lean ====
section
/-! DEFINITION. The frame_length_decoder sub-block (42_frame_length_decoder.md): LEN. -/

namespace Sys2Proof.Machine

/-- LEN with its eight bits read: `Lreg`, `total` and `phase` (R77). -/
def State.lengthRead (f : Bits) (s : State) : State :=
  { s with
    lreg := some (BitVec.ofNat 8 (be f))
    total := some (frameBits s.cfg.K (BitVec.ofNat 8 (be f)))
    phase := .body }

/-- LEN (R77). In phase LEN without the eight length bits it waits and X2 is noted (R121). -/
def State.len (s : State) : State :=
  if s.phase = .len then
    match s.memRead (s.scan + s.cfg.K) 8 with
    | some f => s.lengthRead f
    | none => s.note [.x2]
  else s

def execLen (s : State) : Host.Outcome State Fault Refusal := .next s.len

end Sys2Proof.Machine
end

