-- ==== Sys2Proof/Machine/Slicer.lean ====
section
/-! DEFINITION. The frame_slicer sub-block (43_frame_slicer.md): CHK and SLICE, with DECODE (46_sequencer.md R116). -/

namespace Sys2Proof.Machine

/-- CHK with its answer known: X2 when the frame is incomplete (R81). -/
def State.checked (isComplete : Bool) (s : State) : State :=
  match isComplete with
  | true => { s with completeSig := true }
  | false => { s.note [.x2] with completeSig := false }

/-- CHK (R81): it writes the status `complete` and nothing else. What follows, SLICE or `wait`, is the sequencer's
choice (R18, R108; assumption 11). Outside phase BODY it is not enabled and waits. -/
def State.chk (s : State) : State :=
  match s.complete? with
  | some isComplete => s.checked isComplete
  | none => s

/-- The record DECODE builds from the slices of one frame (R116, R22). -/
def frameOut (c : Config) (syncBits lengthField : Bits) (L : Byte) (psdu : Bits) (totalBits : Nat) : FrameOut where
  syncBits := syncBits
  lengthField := lengthField
  L := L
  psdu := psdu
  hb := hbOf psdu L
  hdrPresent := hdrPresentOf (hbOf psdu L)
  header := hdr psdu L
  crcRx := crcRxOf psdu L
  crcCalc := crcCalcOf c lengthField (hbOf psdu L)
  crcValid := crcValidOf (crcCalcOf c lengthField (hbOf psdu L)) (crcRxOf psdu L)
  totalBits := totalBits

/-- The conditions DECODE notes: HDR's, then CRC's (R116; their order cannot be seen, R126). -/
def decodeNotes (r : FrameOut) : List Condition := headerNotes r.hb ++ checksumNote r.crcCalc r.crcRx

/-- DECODE: HDR, CRC, EMIT (R116). Both decoders always complete, so exactly one record is emitted. -/
def State.decodeFrame (syncBits lengthField : Bits) (L : Byte) (psdu : Bits) (totalBits : Nat) (s : State) : State :=
  ((s.note (decodeNotes (frameOut s.cfg syncBits lengthField L psdu totalBits)))).emitRecord
    (frameOut s.cfg syncBits lengthField L psdu totalBits)

/-- The slices of the pending frame with its `L` and `totalBits`, when SLICE is enabled (R82): CHK is complete and every
bit the three reads take is held. -/
def State.pendingFrame (s : State) : Option (Bits × Bits × Byte × Bits × Nat) :=
  match s.complete?, s.lreg, s.total with
  | some true, some L, some t =>
    match s.memRead s.scan s.cfg.K, s.memRead (s.scan + s.cfg.K) 8,
        s.memRead (s.scan + s.cfg.K + 8) ((L.toNat + 2) * 8) with
    | some syncBits, some lengthField, some psdu => some (syncBits, lengthField, L, psdu, t)
    | _, _, _ => none
  | _, _, _ => none

/-- SLICE's change of the sequencing state: CONSUME of everything up to the frame's end (R82). -/
def State.release (consumed : Nat) (s : State) : State :=
  { s.consumeBits consumed with scan := 0, phase := .search, lreg := none, total := none }

/-- SLICE (R82), one atomic step. Where CHK would not be complete it is not enabled and waits (assumption 9). -/
def State.slice (s : State) : State :=
  match s.pendingFrame with
  | some (syncBits, lengthField, L, psdu, t) =>
    (s.release (s.scan + t)).decodeFrame syncBits lengthField L psdu t
  | none => s

def execChk (s : State) : Host.Outcome State Fault Refusal := .next s.chk

def execSlice (s : State) : Host.Outcome State Fault Refusal := .next s.slice

end Sys2Proof.Machine
end

