-- ==== Sys2Proof/Machine/Sequencer.lean ====
section
/-! DEFINITION. The sequencer (46_sequencer.md): EMIT, PASS, START, STOP, and the pseudo-operations RUN and INGEST. -/

namespace Sys2Proof.Machine

/-- EMIT (R117). -/
def execEmit (record : FrameOut) (s : State) : Host.Outcome State Fault Refusal := .next (s.emitRecord record)

/-- PASS (R118). -/
def execPass (bits : Bits) (s : State) : Host.Outcome State Fault Refusal := .next (s.passBits bits)

/-- START (R114). -/
def execStart (s : State) : Host.Outcome State Fault Refusal := .next s.started

/-- STOP (R115). -/
def execStop (s : State) : Host.Outcome State Fault Refusal := .next s.stopped

/-- One step of the sequencer (R108); `none` is `wait`. -/
def State.dispatch (s : State) : Option State :=
  match s.phase with
  | .search => if s.cfg.K ≤ s.live then some s.corrAdv else none
  | .len => if s.cfg.K + 8 ≤ s.live then some s.len else none
  | .body =>
    match s.complete? with
    | some true => some s.chk.slice
    | some false => none
    | none => none

/-- The block is quiescent: the step of R108 says `wait` (R113). -/
abbrev State.Quiescent (s : State) : Prop := s.dispatch = none

/-- What a `wait` leaves: nothing changes but the status `complete`, which CHK has just written in BODY, and the note
of X2 (R113, R121). -/
def State.waited (s : State) : State :=
  match s.phase with
  | .search => s.note [.x2]
  | .len => s.note [.x2]
  | .body => s.chk

/-- RUN (R109) for at most `fuel` steps, the `wait` that ends it included. -/
def runFor : Nat → State → State
  | 0, s => s
  | fuel + 1, s =>
    match s.dispatch with
    | some s' => runFor fuel s'
    | none => s.waited

/-- RUN takes at most `3 * live + 2` steps that are not `wait` (R109). -/
def State.runBound (s : State) : Nat := 3 * s.live + 2

/-- The pseudo-operation RUN (R109). -/
def State.runAll (s : State) : State := runFor (s.runBound + 1) s

/-- The pseudo-operation INGEST (R110): one atomic step that ends quiescent. A stopped block refuses it: no state of
the block changes and nothing is output. -/
def ingest (bits : Bits) (s : State) : Host.Outcome State Fault Refusal :=
  if s.run then
    if s.fits bits then .next ((s.passBits bits).appendBits bits).runAll else .refused .bufferFull
  else .next (s.turnAway (.ingest bits))

/-- With no input waiting a running block goes on with the sequencer's step until it is quiescent, and then waits
without any change (R113); after STOP "no step runs" (R115). -/
def State.idle (s : State) : State :=
  if s.run then
    match s.dispatch with
    | some s' => s'
    | none => s
  else s

end Sys2Proof.Machine
end

