-- ==== Sys2Proof/Machine/Dispatch.lean ====
section
/-! DEFINITION. One arm for each row of spec/opcode_table.json. -/

namespace Sys2Proof.Machine

def exec (i : Instr) (s : State) : Host.Outcome State Fault Refusal :=
  match i with
  | .append bits => Sys2Proof.Machine.execAppend bits s
  | .consume n => Sys2Proof.Machine.execConsume n s
  | .corr => Sys2Proof.Machine.execCorr s
  | .adv => Sys2Proof.Machine.execAdv s
  | .len => Sys2Proof.Machine.execLen s
  | .chk => Sys2Proof.Machine.execChk s
  | .slice => Sys2Proof.Machine.execSlice s
  | .hb psdu L => Sys2Proof.Machine.execHb psdu L s
  | .fcf body => Sys2Proof.Machine.execFcf body s
  | .ftype word => Sys2Proof.Machine.execFtype word s
  | .ackrq word => Sys2Proof.Machine.execAckrq word s
  | .dam word => Sys2Proof.Machine.execDam word s
  | .sam word => Sys2Proof.Machine.execSam word s
  | .seq body => Sys2Proof.Machine.execSeq body s
  | .pan body => Sys2Proof.Machine.execPan body s
  | .daddr body dm => Sys2Proof.Machine.execDaddr body dm s
  | .saddr body dm sm => Sys2Proof.Machine.execSaddr body dm sm s
  | .crcrx psdu L => Sys2Proof.Machine.execCrcrx psdu L s
  | .crc16 lengthField body => Sys2Proof.Machine.execCrc16 lengthField body s
  | .crcchk crcCalc crcRx => Sys2Proof.Machine.execCrcchk crcCalc crcRx s
  | .emit record => Sys2Proof.Machine.execEmit record s
  | .pass bits => Sys2Proof.Machine.execPass bits s
  | .start => Sys2Proof.Machine.execStart s
  | .stop => Sys2Proof.Machine.execStop s
  | .ftypeBeacon hi => Sys2Proof.Machine.execFtypeBeacon hi s
  | .ftypeData hi => Sys2Proof.Machine.execFtypeData hi s
  | .ftypeAck hi => Sys2Proof.Machine.execFtypeAck hi s
  | .ftypeMacCommand hi => Sys2Proof.Machine.execFtypeMacCommand hi s
  | .ftypeUnknown hi lo => Sys2Proof.Machine.execFtypeUnknown hi lo s
  | .ackrqFalse hi lo => Sys2Proof.Machine.execAckrqFalse hi lo s
  | .ackrqTrue hi lo => Sys2Proof.Machine.execAckrqTrue hi lo s
  | .damNone hi lo => Sys2Proof.Machine.execDamNone hi lo s
  | .damUnknown hi lo => Sys2Proof.Machine.execDamUnknown hi lo s
  | .damShort16 hi lo => Sys2Proof.Machine.execDamShort16 hi lo s
  | .damLong64 hi lo => Sys2Proof.Machine.execDamLong64 hi lo s
  | .samNone lo => Sys2Proof.Machine.execSamNone lo s
  | .samUnknown lo => Sys2Proof.Machine.execSamUnknown lo s
  | .samShort16 lo => Sys2Proof.Machine.execSamShort16 lo s
  | .samLong64 lo => Sys2Proof.Machine.execSamLong64 lo s

end Sys2Proof.Machine
end

