-- ==== Sys2Proof/Machine/Fetch.lean ====
section
/-! DEFINITION. Taking the next input: what the step has before it (00_scope.md R9; 46_sequencer.md R110, R114, R115). -/

namespace Sys2Proof.Machine

/-- What the step finds at its input. -/
inductive Fetched where
  /-- No input waits. -/
  | nothing
  /-- An ingest call. -/
  | call (bits : Bits)
  /-- An issued operation, decoded. -/
  | run (i : Instr)
  /-- An issued operation that a stopped block does not run. -/
  | notRunning (slot : Slot)
  /-- A slot without a meaning. -/
  | bad (reason : Refusal)

/-- The operations lifecycle control may issue to a stopped block (R134). -/
def isLifecycle : Instr → Bool
  | .start => true
  | .stop => true
  | _ => false

/-- An issued slot: decoded, its operands checked, and kept from a stopped block unless it is START or STOP ("after
STOP … no step runs and no record is emitted", R115; R129). -/
def fetchSlot (run : Bool) (slot : Slot) : Fetched :=
  match decode slot with
  | .error reason => .bad (.undecodable reason)
  | .ok i =>
    if i.wellFormed then
      if run || isLifecycle i then .run i else .notRunning slot
    else .bad .illFormedOperands

/-- The next input of the state. -/
def State.fetch (s : State) : Fetched :=
  match s.inp with
  | [] => .nothing
  | .ingest bits :: _ => .call bits
  | .issue slot :: _ => fetchSlot s.run slot

/-- The state after its next input is taken. -/
def State.taken (s : State) : State := { s with inp := s.inp.tail }

end Sys2Proof.Machine
end

