-- ==== Sys2Proof/Machine/Step.lean ====
section
/-! DEFINITION. One step of the machine: the next input, or the sequencer's own step when no input waits. -/

namespace Sys2Proof.Machine

def step (s : State) : Host.Outcome State Fault Refusal :=
  match s.fetch with
  | .nothing => .next s.idle
  | .call bits => ingest bits s.taken
  | .run i => exec i s.taken
  | .notRunning slot => .next (s.taken.turnAway (.issue slot))
  | .bad reason => .refused reason

/-- The slot of a table word before every other input, in a started block (assumption 6). -/
def State.withFetchWord (s : State) (nbits w : Nat) : State :=
  { s with inp := .issue (slotOfTableWord nbits w) :: s.inp, run := true }

end Sys2Proof.Machine
end

