-- ==== Sys2Proof/Machine/Construct.lean ====
section
/-! DEFINITION. Construction (70_reset_and_hazards.md R135, R137; 10_state.md R19) and the text syntax of stimulus
programs (30_encoding.md R57). Construction is no step: the configuration cannot change afterwards (R40, R141). -/

namespace Sys2Proof.Machine

/-- Why a configuration is refused at construction: "the block is not built" (R19). -/
inductive ConfigError where
  | emptyPattern
  | nonBinaryPattern
  | negativeThreshold
  deriving DecidableEq, Repr

/-- What a text of bits is read as: bits, or inside a byte list between bytes, or after a byte's first digit. -/
inductive TextMode where
  | bits
  | bytes
  | nibble (high : Nat)
  deriving DecidableEq, Repr

/-- The value whose digit in a base (at most sixteen, small letters) is this character. -/
def digitIn (base : Nat) (c : Char) : Option Nat := (List.range base).find? fun v => Nat.digitChar v = c

/-- A digit of a byte list (R57). R57 says "written in hex" and names no letter case: both are read (DESIGN CHOICE,
assumption 22). -/
def hexDigit (c : Char) : Option Nat := digitIn 16 c.toLower

/-- The braces of a byte list, by their code points. -/
def openBrace : Char := Char.ofNat 0x7B

def closeBrace : Char := Char.ofNat 0x7D

/-- A bit string, leftmost character first; spaces carry no meaning; a byte list stands for its bits (R57). DESIGN CHOICE
(assumption 22): bit groups and byte lists may follow each other in one text; the bytes of a list need no space between
them, a byte is two digits with no space inside, and a list may be empty. -/
def parseBits : TextMode → List Char → Option Bits
  | .bits, [] => some []
  | .bytes, [] => none
  | .nibble _, [] => none
  | .bits, c :: rest =>
    if c = ' ' then parseBits .bits rest
    else if c = '0' then (parseBits .bits rest).map (false :: ·)
    else if c = '1' then (parseBits .bits rest).map (true :: ·)
    else if c = openBrace then parseBits .bytes rest
    else none
  | .bytes, c :: rest =>
    if c = ' ' then parseBits .bytes rest
    else if c = closeBrace then parseBits .bits rest
    else match hexDigit c with
      | some d => parseBits (.nibble d) rest
      | none => none
  | .nibble high, c :: rest =>
    match hexDigit c with
    | some d => (parseBits .bytes rest).map (toBits 8 (16 * high + d) ++ ·)
    | none => none

/-- The pattern's text: the characters `0` and `1`, spaces between groups allowed (R57). DESIGN CHOICE (assumption 22):
a byte list does not stand for a pattern. R57 calls the pattern "a string of the characters `0` and `1`" and says of a
byte list only that it stands for a bit string; here its braces and digits are non-binary characters (R19). -/
def parsePattern : List Char → Option Bits
  | [] => some []
  | c :: rest =>
    if c = ' ' then parsePattern rest
    else if c = '0' then (parsePattern rest).map (false :: ·)
    else if c = '1' then (parsePattern rest).map (true :: ·)
    else none

/-- A configuration from what lifecycle control supplies, or its refusal (R19, R137). Where both are illegal the reason
named is the pattern's (DESIGN CHOICE, assumption 22). -/
def configure (pattern : List Char) (threshold : Int) : Except ConfigError Config :=
  match parsePattern pattern with
  | none => .error .nonBinaryPattern
  | some [] => .error .emptyPattern
  | some p => if threshold < 0 then .error .negativeThreshold else .ok (Config.make p threshold.toNat)

/-- The block as construction leaves it: not started (R10), nothing held and nothing at its ports. -/
def built (c : Config) : State := { State.reset with cfg := c, run := false }

/-- Construction: a block, or its refusal (R135, R137). -/
def construct (pattern : List Char) (threshold : Int) : Except ConfigError State :=
  match configure pattern threshold with
  | .ok c => .ok (built c)
  | .error e => .error e

/-- One line of a stimulus program (R57). -/
inductive Stimulus where
  | config (pattern : List Char) (threshold : Nat)
  | start
  | ingest (bits : Bits)
  | stop
  deriving DecidableEq, Repr

/-- The rest of a text after a keyword. -/
def afterWord : List Char → List Char → Option (List Char)
  | [], text => some text
  | _ :: _, [] => none
  | k :: word, c :: text => if k = c then afterWord word text else none

/-- A decimal number, at least one digit already read into `acc`. -/
def parseDecimal (acc : Nat) : List Char → Option Nat
  | [] => some acc
  | c :: rest => (digitIn 10 c).bind fun d => parseDecimal (10 * acc + d) rest

/-- `T=<decimal>`: at least one digit and nothing after the digits; leading zeros are read (DESIGN CHOICE, assumption
22). -/
def parseThreshold (text : List Char) : Option Nat :=
  match afterWord ['T', '='] text with
  | some (c :: rest) => (digitIn 10 c).bind fun d => parseDecimal d rest
  | _ => none

/-- The chunk of an INGEST line: a bit string or byte lists, the empty one written as two quotation marks (R57). DESIGN
CHOICE (assumption 22): no text, spaces alone and a byte list without bytes are read as the empty chunk too; the quotation
marks stand alone, with no space beside them. -/
def parseChunk (text : List Char) : Option Bits := if text = ['"', '"'] then some [] else parseBits .bits text

/-- A line of R57's syntax. DESIGN CHOICE (assumption 22): the four line forms are the whole line, apart from spaces
inside a bit string; a comment after a line (`; 9 bits`, as 95_test_vectors.md P1 writes) is no part of it, and a text
that holds one is no line. In CONFIG all that stands before the first `T` is the pattern's text, so the space before `T=`
may be missing or repeated; one space follows the words CONFIG and INGEST, and more after INGEST are of the bit string. -/
def parseLine (text : List Char) : Option Stimulus :=
  match afterWord ['C', 'O', 'N', 'F', 'I', 'G', ' ', 'P', 'A', 'T', 'T', 'E', 'R', 'N', '='] text with
  | some rest =>
    (parseThreshold (rest.dropWhile fun c => c ≠ 'T')).map fun t =>
      .config (rest.takeWhile fun c => c ≠ 'T') t
  | none =>
    match afterWord ['I', 'N', 'G', 'E', 'S', 'T', ' '] text with
    | some rest => (parseChunk rest).map .ingest
    | none =>
      if text = ['S', 'T', 'A', 'R', 'T'] then some .start
      else if text = ['S', 'T', 'O', 'P'] then some .stop
      else none

/-- The input a line after the first stands for; CONFIG is construction and no input (R57). -/
def Stimulus.input : Stimulus → Option Input
  | .config _ _ => none
  | .start => some (.issue (encode .start))
  | .ingest bits => some (.ingest bits)
  | .stop => some (.issue (encode .stop))

/-- A stimulus program: construction first, then the inputs of the other lines, in order (R57). -/
def load : List Stimulus → Option State
  | .config pattern threshold :: rest =>
    match construct pattern threshold with
    | .ok s => (rest.mapM Stimulus.input).map fun inputs => { s with inp := inputs }
    | .error _ => none
  | _ => none

end Sys2Proof.Machine
end

