-- ==== Sys2Proof/Safety.lean ====
section
/-! DEFINITION. What a good state is (10_state.md R24), and the terms in which runs are compared. -/

namespace Sys2Proof.Machine

/-- R24 (b), and the clauses of (c) and (d) that do not look into the buffer. -/
abbrev State.PhaseConsistent (s : State) : Prop :=
  match s.phase with
  | .search => s.lreg = none ∧ s.total = none
  | .len => s.lreg = none ∧ s.total = none
  | .body => ∃ L, s.lreg = some L ∧ s.total = some (frameBits s.cfg.K L)

/-- What every step keeps, operations issued one at a time included: a legal configuration (R5), R24 (a), the buffer
within its capacity (R10), the phase's registers, no X4 (R123), and records of the shape of R22. -/
structure State.Inv (s : State) : Prop where
  legal : s.cfg.Legal
  scan_le : s.scan ≤ s.buf.length
  memory : Memory.wf s.cfg.cap s.buf = true
  phase_ok : s.PhaseConsistent
  no_x4 : Condition.x4 ∉ s.notes
  records : ∀ r ∈ s.out, recordShape r

/-- The whole of R24 (a) to (e). CONSUME issued alone inside a pending frame breaks it, as R66 leaves it free to. -/
structure State.R24 (s : State) : Prop extends State.Inv s where
  /-- R24 (c), (d): the window at `scan` matches while a sync is pending. -/
  pending_matches : s.phase ≠ .search → s.matchAt s.scan = some true
  /-- R24 (d): `Lreg` is the value of the eight length bits held. -/
  length_held : s.phase = .body →
    ∃ f, s.memRead (s.scan + s.cfg.K) 8 = some f ∧ s.lreg = some (BitVec.ofNat 8 (be f))
  /-- R24 (e), and R13: every offset below `scan` has been examined and did not match. -/
  examined : ∀ i < s.scan, s.matchAt i = some false
  coherent : ∀ r ∈ s.out, recordCoherent r

/-- The live bits (00_scope.md, glossary). -/
def State.liveBits (s : State) : Bits := s.buf.drop s.scan

/-- The spec's own state (R10) and the records emitted. -/
def State.visible (s : State) : Bits × Nat × Phase × Option Byte × Option Nat × Bool × List FrameOut :=
  (s.buf, s.scan, s.phase, s.lreg, s.total, s.run, s.out)

/-- A run of ingest calls, stopping at the first that has no next state. -/
def feed : List Bits → State → Host.Outcome State Fault Refusal
  | [], s => .next s
  | chunk :: chunks, s =>
    match ingest chunk s with
    | .next s' => feed chunks s'
    | .fault r => .fault r
    | .refused r => .refused r

/-- R25: dead bits dropped early, `scan` lowered by their number. -/
def State.trimmed (s : State) : State := { s with buf := s.buf.drop s.scan, scan := 0 }

/-- The quantity of R109 that falls at every step that is not `wait`. -/
def State.measure (s : State) : Nat :=
  3 * s.live + (match s.phase with | .search => 2 | .len => 1 | .body => 0)

/-- The next input is a CONSUME issued alone while a sync is pending. -/
def State.cutsPendingFrame (s : State) : Bool :=
  match s.fetch with
  | .run (.consume _) => decide (s.phase ≠ .search)
  | _ => false

end Sys2Proof.Machine
end

