-- ==== Sys2Proof/Certificates/Slice0/Obligations.lean ====
section
/-! DEFINITION. The statements for the provers. `{ s with … }` states an operation's result and its frame at once: every
field that is not named keeps its value, the whole bit buffer included. -/

open Sys2Proof Sys2Proof.Machine

/-! ### The notation and the bit_accumulator -/

/-- R8, R33, R34: `be` gives bit `j` of a sequence the weight `2^(len-1-j)`; `rev` gives byte `i` the weight `256^i`. -/
def Obligations.BitAndByteOrder : Prop :=
  (∀ s : Bits, be s = ((List.range s.length).map fun j => (s.getD j false).toNat * 2 ^ (s.length - 1 - j)).sum) ∧
  (∀ (s : Bits) (n : Nat), rev s n = ((List.range n).map fun i => byteAt s i * 256 ^ i).sum) ∧
  ∀ s : Bits, be s < 2 ^ s.length

/-- R65: APPEND adds the chunk at the tail; the empty chunk changes nothing; held bits keep value and offset. -/
def Obligations.AppendAddsAtTail : Prop :=
  ∀ (bits : Bits) (s : State),
    (s.cfg.cap = none ∨ ∃ c, s.cfg.cap = some c ∧ s.buf.length + bits.length ≤ c) →
    exec (.append bits) s = .next { s with buf := s.buf ++ bits } ∧
    (bits = [] → exec (.append bits) s = .next s) ∧
    (∀ i < s.buf.length, (s.buf ++ bits)[i]? = s.buf[i]?) ∧
    ∀ j < bits.length, (s.buf ++ bits)[s.buf.length + j]? = bits[j]?

/-- 93_implementation_defined.md U2: a chunk that does not fit a finite `CAP` is refused, by APPEND and by INGEST. -/
def Obligations.ChunkBeyondCapacityIsRefused : Prop :=
  ∀ (bits : Bits) (s : State) (c : Nat), s.cfg.cap = some c → c < s.buf.length + bits.length →
    exec (.append bits) s = .refused .bufferFull ∧
    (s.run = true → ingest bits s = .refused .bufferFull)

/-- R66: CONSUME discards the first `min n (len buf)` bits, renumbers the rest, and lowers `scan` by what it can. -/
def Obligations.ConsumeDropsFromHead : Prop :=
  ∀ (n : Nat) (s : State),
    exec (.consume n) s = .next
      { s with
        buf := s.buf.drop (min n s.buf.length)
        scan := s.scan - min s.scan (min n s.buf.length) } ∧
    (n = 0 → exec (.consume n) s = .next s) ∧
    (s.buf.length ≤ n → s.buf.drop (min n s.buf.length) = []) ∧
    (∀ i, (s.buf.drop (min n s.buf.length))[i]? = s.buf[min n s.buf.length + i]?) ∧
    (s.scan ≤ s.buf.length →
      s.scan - min s.scan (min n s.buf.length) ≤ (s.buf.drop (min n s.buf.length)).length)

/-- R67 (c), (d): two APPENDs are one, two CONSUMEs are one. -/
def Obligations.AppendAndConsumeCompose : Prop :=
  (∀ (a b : Bits) (s t : State), exec (.append a) s = .next t → t.fits b = true →
    exec (.append b) t = exec (.append (a ++ b)) s) ∧
  ∀ (m n : Nat) (s t : State), s.scan ≤ s.buf.length → exec (.consume m) s = .next t →
    exec (.consume n) t = exec (.consume (m + n)) s

/-! ### The sync_correlator -/

/-- R70: where a whole window is held in SEARCH, CORR counts the positions at which it differs from the pattern and
declares a match when the count is at most `T`; without a window it waits. -/
def Obligations.CorrDecidesByHammingDistance : Prop :=
  ∀ s : State, s.phase = .search →
    (s.scan + s.cfg.K ≤ s.buf.length →
      exec .corr s = .next (
        if ((List.range s.cfg.K).filter fun j => s.buf[s.scan + j]? ≠ s.cfg.pattern[j]?).length ≤ s.cfg.threshold
        then { s with phase := .len, matchSig := true }
        else { s with matchSig := false, notes := s.notes ++ [.x1] })) ∧
    (s.buf.length < s.scan + s.cfg.K → exec .corr s = .next { s with notes := s.notes ++ [.x2] })

/-- R70: `d = T` matches, `d = T + 1` does not, and `T ≥ K` matches every window. -/
def Obligations.ToleranceIsExact : Prop :=
  ∀ (c : Config) (w : Bits), w.length = c.K →
    (windowMatches c w = true ↔
      ((List.range c.K).filter fun j => w[j]? ≠ c.pattern[j]?).length ≤ c.threshold) ∧
    (c.K ≤ c.threshold → windowMatches c w = true) ∧
    (c.threshold = 0 → (windowMatches c w = true ↔ w = c.pattern))

/-- R71: after a CORR that answered `match = false`, ADV moves `scan` by exactly one bit and keeps R24 (a). -/
def Obligations.AdvMovesOneBit : Prop :=
  ∀ s : State, s.cfg.Legal → s.phase = .search → s.scan + s.cfg.K ≤ s.buf.length →
    s.cfg.threshold < ((List.range s.cfg.K).filter fun j => s.buf[s.scan + j]? ≠ s.cfg.pattern[j]?).length →
    exec .adv s = .next { s with scan := s.scan + 1 } ∧ s.scan + 1 ≤ s.buf.length

/-- R72: SCAN finds the smallest offset at or after `scan` whose window matches; where there is none it stops with fewer
than `K` bits live, every window left having been examined. The bits are untouched. -/
def Obligations.ScanFindsLeftmostMatch : Prop :=
  ∀ s : State, s.Inv → s.phase = .search →
    s.scanAll.buf = s.buf ∧ s.scanAll.out = s.out ∧ s.scan ≤ s.scanAll.scan ∧
    (∀ i, s.scan ≤ i → i < s.scanAll.scan → s.matchAt i = some false) ∧
    ((∃ i, s.scan ≤ i ∧ s.matchAt i = some true) →
      s.scanAll.phase = .len ∧ s.matchAt s.scanAll.scan = some true) ∧
    ((∀ i, s.scan ≤ i → s.matchAt i ≠ some true) →
      s.scanAll.phase = .search ∧ s.scanAll.live = min s.live (s.cfg.K - 1))

/-! ### The frame_length_decoder and the frame_slicer -/

/-- R77: LEN reads the eight bits after the sync window, most significant first, and computes `total`; without them it
waits. -/
def Obligations.LenReadsLengthField : Prop :=
  ∀ s : State, s.phase = .len →
    (s.scan + s.cfg.K + 8 ≤ s.buf.length → ∃ v : Nat, v ≤ 255 ∧
      v = ((List.range 8).map fun j => (s.buf.getD (s.scan + s.cfg.K + j) false).toNat * 2 ^ (7 - j)).sum ∧
      exec .len s = .next
        { s with lreg := some (BitVec.ofNat 8 v), total := some (s.cfg.K + 8 + (v + 2) * 8), phase := .body }) ∧
    (s.buf.length < s.scan + s.cfg.K + 8 → exec .len s = .next { s with notes := s.notes ++ [.x2] })

/-- R78: the length formula's arithmetic and the three values the source asks to verify. -/
def Obligations.LengthFormulaArithmetic : Prop :=
  (∀ (K : Nat) (L : Byte), frameBits K L = K + 8 + (L.toNat + 2) * 8 ∧ (L.toNat + 2) * 8 ≤ 2056 ∧
    (L.toNat + 2) * 8 = (L.toNat + 2) <<< 3 ∧ K + 24 ≤ frameBits K L ∧ frameBits K L ≤ K + 2064) ∧
  frameBits 16 0#8 = 40 ∧ frameBits 16 1#8 = 48 ∧ frameBits 16 255#8 = 2080

/-- In BODY, CHK answers whether `total` bits are live (R81); incomplete, X2 is noted, the pending frame is kept as it is,
and the sequencer's step is `wait`; complete, the sequencer's step is CHK then SLICE (R108). That CHK issued alone on a
complete frame writes the status and does not itself go on to SLICE is the model's reading of R81, R18 and R108
(assumption 11). -/
def Obligations.ChkReportsCompleteness : Prop :=
  ∀ (s : State) (t : Nat), s.phase = .body → s.total = some t →
    (t ≤ s.buf.length - s.scan →
      exec .chk s = .next { s with completeSig := true } ∧
      ∃ u, exec .slice { s with completeSig := true } = .next u ∧ s.dispatch = some u) ∧
    (s.buf.length - s.scan < t →
      exec .chk s = .next { s with completeSig := false, notes := s.notes ++ [.x2] } ∧ s.dispatch = none)

/-- R82, R116, R22: SLICE cuts the three slices out, discards the frame and every bit before it, returns to SEARCH at
offset 0 and emits exactly one record, whatever the CRC and the header say. Its checksum is CRC16's (R103); its header is
what the operations of R98 leave (`FieldsPresentWhenTheyFit`). X3 is noted exactly when the checksums differ, X5 exactly
when a field that the header announces does not fit (R124), with the widths of R50. -/
def Obligations.SliceEmitsFrame : Prop :=
  ∀ (s : State) (L : Byte), s.phase = .body → s.lreg = some L → s.total = some (s.cfg.K + 8 + (L.toNat + 2) * 8) →
    s.scan + (s.cfg.K + 8 + (L.toNat + 2) * 8) ≤ s.buf.length →
    ∃ (r : FrameOut) (noted : List Condition),
      exec .slice s = .next
        { s with
          buf := s.buf.drop (s.scan + (s.cfg.K + 8 + (L.toNat + 2) * 8))
          scan := 0
          phase := .search
          lreg := none
          total := none
          out := s.out ++ [r]
          notes := s.notes ++ noted } ∧
      r.syncBits = (s.buf.drop s.scan).take s.cfg.K ∧
      r.lengthField = (s.buf.drop (s.scan + s.cfg.K)).take 8 ∧
      r.L = L ∧
      r.psdu = (s.buf.drop (s.scan + s.cfg.K + 8)).take ((L.toNat + 2) * 8) ∧
      r.hb = r.psdu.take (8 * L.toNat) ∧
      r.hdrPresent = decide (2 ≤ L.toNat) ∧
      r.header = headerOf r.hb ∧
      r.crcRx = BitVec.ofNat 16 (be (r.psdu.drop (8 * L.toNat))) ∧
      r.crcCalc = crcOfBytes s.cfg (crcMessage r.lengthField r.hb) ∧
      exec (.crc16 r.lengthField r.hb) s = .next { s with draft := { s.draft with crcCalc := r.crcCalc } } ∧
      (r.crcValid = true ↔ r.crcCalc = r.crcRx) ∧
      r.totalBits = s.cfg.K + 8 + (L.toNat + 2) * 8 ∧
      (.x3 ∈ noted ↔ r.crcValid = false) ∧
      (.x5 ∈ noted ↔ r.hb.length < 40 +
        (if r.header.destAddrMode = some .short16 then 16 else if r.header.destAddrMode = some .long64 then 64 else 0) +
        (if r.header.srcAddrMode = some .short16 then 16 else if r.header.srcAddrMode = some .long64 then 64 else 0)) ∧
      ∀ c ∈ noted, c = .x3 ∨ c = .x5

/-- The model's choice (assumptions 9 and 11): an operation of the sequencer that is issued where no rule issues it
waits, and changes nothing. -/
def Obligations.OperationsNotEnabledWait : Prop :=
  ∀ s : State,
    (s.phase ≠ .search → exec .corr s = .next s ∧ exec .adv s = .next s) ∧
    (s.phase ≠ .len → exec .len s = .next s) ∧
    (s.phase ≠ .body → exec .chk s = .next s ∧ exec .slice s = .next s) ∧
    (s.matchAt s.scan ≠ some false → exec .adv s = .next s) ∧
    (∀ t, s.total = some t → s.live < t → exec .slice s = .next s)

/-! ### The mac_header_bitfield_decoder: operations issued one at a time -/

/-- R87: HB strips the CRC field; `hdrPresent` is `L ≥ 2`; X5 when it is false. -/
def Obligations.HbStripsChecksum : Prop :=
  ∀ (psdu : Bits) (L : Byte) (s : State), psdu.length = (L.toNat + 2) * 8 →
    exec (.hb psdu L) s = .next
      { s with
        draft := { s.draft with hb := psdu.take (8 * L.toNat), hdrPresent := decide (2 ≤ L.toNat) }
        notes := s.notes ++ (if 2 ≤ L.toNat then [] else [.x5]) }

/-- R88: the first byte to arrive is the low byte of `fcf`; with fewer than 16 bits there is none. -/
def Obligations.FcfReversesBytes : Prop :=
  ∀ (hb : Bits) (s : State),
    exec (.fcf hb) s = .next
      { s with
        draft := { s.draft with
          header := { s.draft.header with
            fcf := if 16 ≤ hb.length
              then some (BitVec.ofNat 16 (be ((hb.drop 8).take 8) * 256 + be (hb.take 8))) else none } } }

/-- R89, R48: the frame type is `fcf mod 8` by the table. -/
def Obligations.FtypeByTable : Prop :=
  ∀ (s : State),
    exec (.ftype none) s = .next
      { s with draft := { s.draft with header := { s.draft.header with frameType := none } } } ∧
    ∀ fcf : BitVec 16, exec (.ftype (some fcf)) s = .next
      { s with
        draft := { s.draft with
          header := { s.draft.header with
            frameType := some (
              if fcf.toNat % 8 = 0 then .beacon else if fcf.toNat % 8 = 1 then .data
              else if fcf.toNat % 8 = 2 then .ack else if fcf.toNat % 8 = 3 then .macCommand else .unknown) } } }

/-- R90: acknowledge request is `(fcf >> 5) mod 2`. -/
def Obligations.AckrqReadsBitFive : Prop :=
  ∀ (s : State),
    exec (.ackrq none) s = .next
      { s with draft := { s.draft with header := { s.draft.header with ackRequested := none } } } ∧
    ∀ fcf : BitVec 16, exec (.ackrq (some fcf)) s = .next
      { s with
        draft := { s.draft with
          header := { s.draft.header with ackRequested := some (decide ((fcf.toNat >>> 5) % 2 = 1)) } } }

/-- R91: the destination addressing mode is `(fcf >> 10) mod 4` by the table of R49. -/
def Obligations.DamByTable : Prop :=
  ∀ (s : State),
    exec (.dam none) s = .next
      { s with draft := { s.draft with header := { s.draft.header with destAddrMode := none } } } ∧
    ∀ fcf : BitVec 16, exec (.dam (some fcf)) s = .next
      { s with
        draft := { s.draft with
          header := { s.draft.header with
            destAddrMode := some (
              if (fcf.toNat >>> 10) % 4 = 0 then .noAddress else if (fcf.toNat >>> 10) % 4 = 1 then .unknown
              else if (fcf.toNat >>> 10) % 4 = 2 then .short16 else .long64) } } }

/-- R92: the source addressing mode is `fcf >> 14` by the table of R49. -/
def Obligations.SamByTable : Prop :=
  ∀ (s : State),
    exec (.sam none) s = .next
      { s with draft := { s.draft with header := { s.draft.header with srcAddrMode := none } } } ∧
    ∀ fcf : BitVec 16, exec (.sam (some fcf)) s = .next
      { s with
        draft := { s.draft with
          header := { s.draft.header with
            srcAddrMode := some (
              if fcf.toNat >>> 14 = 0 then .noAddress else if fcf.toNat >>> 14 = 1 then .unknown
              else if fcf.toNat >>> 14 = 2 then .short16 else .long64) } } }

/-- R93: the sequence number is byte 2, present when 24 bits are there. -/
def Obligations.SeqReadsByteTwo : Prop :=
  ∀ (hb : Bits) (s : State),
    exec (.seq hb) s = .next
      { s with
        draft := { s.draft with
          header := { s.draft.header with
            sequenceNumber :=
              if 24 ≤ hb.length then some (BitVec.ofNat 8 (be ((hb.drop 16).take 8))) else none } }
        notes := s.notes ++ (if 24 ≤ hb.length then [] else [.x5]) }

/-- R94: the PAN ID is bytes 3 and 4, byte 3 the low one, present when 40 bits are there. -/
def Obligations.PanReversesBytes : Prop :=
  ∀ (hb : Bits) (s : State),
    exec (.pan hb) s = .next
      { s with
        draft := { s.draft with
          header := { s.draft.header with
            panId := if 40 ≤ hb.length
              then some (BitVec.ofNat 16 (be ((hb.drop 32).take 8) * 256 + be ((hb.drop 24).take 8))) else none } }
        notes := s.notes ++ (if 40 ≤ hb.length then [] else [.x5]) }

/-- R95, R50: the destination address stands at bit 40, its first byte the least significant, and is present when all of
it is there; modes `None` and `Unknown` and an absent mode take no bits. -/
def Obligations.DaddrByMode : Prop :=
  ∀ (hb : Bits) (s : State),
    exec (.daddr hb (some .short16)) s = .next
      { s with
        draft := { s.draft with
          header := { s.draft.header with
            destAddress := if 56 ≤ hb.length
              then some (.short16 (BitVec.ofNat 16 (byteAt hb 5 + byteAt hb 6 * 256))) else none } }
        notes := s.notes ++ (if 56 ≤ hb.length then [] else [.x5]) } ∧
    exec (.daddr hb (some .long64)) s = .next
      { s with
        draft := { s.draft with
          header := { s.draft.header with
            destAddress := if 104 ≤ hb.length
              then some (.long64 (BitVec.ofNat 64 ((List.range 8).map fun i => byteAt hb (5 + i) * 256 ^ i).sum))
              else none } }
        notes := s.notes ++ (if 104 ≤ hb.length then [] else [.x5]) } ∧
    ∀ m, m = none ∨ m = some .noAddress ∨ m = some .unknown →
      exec (.daddr hb m) s = .next
        { s with draft := { s.draft with header := { s.draft.header with destAddress := none } } }

/-- R96: the source address starts right after the destination address's nominal width. -/
def Obligations.SaddrAfterNominalWidth : Prop :=
  ∀ (hb : Bits) (dm : Option AddrMode) (wd : Nat) (s : State),
    wd = (if dm = some .short16 then 2 else if dm = some .long64 then 8 else 0) →
    exec (.saddr hb dm (some .short16)) s = .next
      { s with
        draft := { s.draft with
          header := { s.draft.header with
            srcAddress := if 8 * (5 + wd) + 16 ≤ hb.length
              then some (.short16 (BitVec.ofNat 16 (byteAt hb (5 + wd) + byteAt hb (6 + wd) * 256))) else none } }
        notes := s.notes ++ (if 8 * (5 + wd) + 16 ≤ hb.length then [] else [.x5]) } ∧
    exec (.saddr hb dm (some .long64)) s = .next
      { s with
        draft := { s.draft with
          header := { s.draft.header with
            srcAddress := if 8 * (5 + wd) + 64 ≤ hb.length
              then some (.long64 (BitVec.ofNat 64 ((List.range 8).map fun i => byteAt hb (5 + wd + i) * 256 ^ i).sum))
              else none } }
        notes := s.notes ++ (if 8 * (5 + wd) + 64 ≤ hb.length then [] else [.x5]) } ∧
    ∀ m, m = none ∨ m = some .noAddress ∨ m = some .unknown →
      exec (.saddr hb dm m) s = .next
        { s with draft := { s.draft with header := { s.draft.header with srcAddress := none } } }

/-- R97, R124: a field is present exactly when every one of its bits lies inside `hb`, and X5 is noted exactly when an
announced field is missing, with the widths of R50. And the values of the fields (R98): from any state, HB, FCF, FTYPE,
ACKRQ, DAM, SAM, SEQ, PAN, DADDR and SADDR issued in this order, each on what the earlier ones wrote, leave `headerOf hb`
in the draft record (assumption 5) and `headerNotes hb` in the notes (assumption 7), and nothing else. -/
def Obligations.FieldsPresentWhenTheyFit : Prop :=
  (∀ (hb : Bits) (wd ws : Nat),
    wd = (if (headerOf hb).destAddrMode = some .short16 then 16
      else if (headerOf hb).destAddrMode = some .long64 then 64 else 0) →
    ws = (if (headerOf hb).srcAddrMode = some .short16 then 16
      else if (headerOf hb).srcAddrMode = some .long64 then 64 else 0) →
    ((headerOf hb).fcf.isSome ↔ 16 ≤ hb.length) ∧
    ((headerOf hb).frameType.isSome ↔ 16 ≤ hb.length) ∧
    ((headerOf hb).ackRequested.isSome ↔ 16 ≤ hb.length) ∧
    ((headerOf hb).destAddrMode.isSome ↔ 16 ≤ hb.length) ∧
    ((headerOf hb).srcAddrMode.isSome ↔ 16 ≤ hb.length) ∧
    ((headerOf hb).sequenceNumber.isSome ↔ 24 ≤ hb.length) ∧
    ((headerOf hb).panId.isSome ↔ 40 ≤ hb.length) ∧
    ((headerOf hb).destAddress.isSome ↔ 0 < wd ∧ 40 + wd ≤ hb.length) ∧
    ((headerOf hb).srcAddress.isSome ↔ 0 < ws ∧ 40 + wd + ws ≤ hb.length) ∧
    (.x5 ∈ headerNotes hb ↔ hb.length < 40 + wd + ws)) ∧
  ∀ (psdu : Bits) (L : Byte) (s : State), psdu.length = (L.toNat + 2) * 8 →
    hdr psdu L = headerOf (psdu.take (8 * L.toNat)) ∧
    ∃ a b c d e f g h i t : State,
      exec (.hb psdu L) s = .next a ∧
      exec (.fcf a.draft.hb) a = .next b ∧
      exec (.ftype b.draft.header.fcf) b = .next c ∧
      exec (.ackrq c.draft.header.fcf) c = .next d ∧
      exec (.dam d.draft.header.fcf) d = .next e ∧
      exec (.sam e.draft.header.fcf) e = .next f ∧
      exec (.seq f.draft.hb) f = .next g ∧
      exec (.pan g.draft.hb) g = .next h ∧
      exec (.daddr h.draft.hb h.draft.header.destAddrMode) h = .next i ∧
      exec (.saddr i.draft.hb i.draft.header.destAddrMode i.draft.header.srcAddrMode) i = .next t ∧
      t = { s with
        draft := { s.draft with
          hb := psdu.take (8 * L.toNat)
          hdrPresent := decide (2 ≤ L.toNat)
          header := headerOf (psdu.take (8 * L.toNat)) }
        notes := s.notes ++ headerNotes (psdu.take (8 * L.toNat)) }

/-- R98's table: what is present by `L` when both modes are `Short16`. -/
def Obligations.HeaderByLength : Prop :=
  ∀ (psdu : Bits) (L : Byte), psdu.length = (L.toNat + 2) * 8 →
    (L.toNat < 2 → hdr psdu L = DecodedHeader.empty) ∧
    ((hdr psdu L).destAddrMode = some .short16 → (hdr psdu L).srcAddrMode = some .short16 →
      2 ≤ L.toNat ∧
      ((hdr psdu L).sequenceNumber.isSome ↔ 3 ≤ L.toNat) ∧
      ((hdr psdu L).panId.isSome ↔ 5 ≤ L.toNat) ∧
      ((hdr psdu L).destAddress.isSome ↔ 7 ≤ L.toNat) ∧
      ((hdr psdu L).srcAddress.isSome ↔ 9 ≤ L.toNat))

/-! ### The `FCF_value` rows of spec/opcode_table.json -/

/-- The rows of tables FTYPE and ACKRQ (R48, R47): whatever the bits the row leaves open, the named operation gives the
row's result. -/
def Obligations.FrameTypeAndAckRows : Prop :=
  ∀ (s : State),
    (∀ (hi : BitVec 13) (t : FrameType) (i : Instr),
      (i = .ftypeBeacon hi ∧ t = .beacon) ∨ (i = .ftypeData hi ∧ t = .data) ∨ (i = .ftypeAck hi ∧ t = .ack) ∨
        (i = .ftypeMacCommand hi ∧ t = .macCommand) ∨ (∃ lo, i = .ftypeUnknown hi lo ∧ t = .unknown) →
      exec i s = .next
        { s with draft := { s.draft with header := { s.draft.header with frameType := some t } } }) ∧
    ∀ (hi : BitVec 10) (lo : BitVec 5) (a : Bool) (i : Instr),
      (i = .ackrqFalse hi lo ∧ a = false) ∨ (i = .ackrqTrue hi lo ∧ a = true) →
      exec i s = .next
        { s with draft := { s.draft with header := { s.draft.header with ackRequested := some a } } }

/-- The rows of tables DAM and SAM (R49). -/
def Obligations.AddressModeRows : Prop :=
  ∀ (s : State),
    (∀ (hi : BitVec 4) (lo : BitVec 10) (m : AddrMode) (i : Instr),
      (i = .damNone hi lo ∧ m = .noAddress) ∨ (i = .damUnknown hi lo ∧ m = .unknown) ∨
        (i = .damShort16 hi lo ∧ m = .short16) ∨ (i = .damLong64 hi lo ∧ m = .long64) →
      exec i s = .next
        { s with draft := { s.draft with header := { s.draft.header with destAddrMode := some m } } }) ∧
    ∀ (lo : BitVec 14) (m : AddrMode) (i : Instr),
      (i = .samNone lo ∧ m = .noAddress) ∨ (i = .samUnknown lo ∧ m = .unknown) ∨
        (i = .samShort16 lo ∧ m = .short16) ∨ (i = .samLong64 lo ∧ m = .long64) →
      exec i s = .next
        { s with draft := { s.draft with header := { s.draft.header with srcAddrMode := some m } } }

/-! ### The crc16_checker -/

/-- R102: the received checksum is the last 16 bits of `psdu`, the first of them of weight 32768. -/
def Obligations.CrcrxReadsLastSixteenBits : Prop :=
  ∀ (psdu : Bits) (L : Byte) (s : State), psdu.length = (L.toNat + 2) * 8 →
    exec (.crcrx psdu L) s = .next
      { s with
        draft := { s.draft with
          crcRx := BitVec.ofNat 16
            ((List.range 16).map fun j => (psdu.getD (8 * L.toNat + j) false).toNat * 2 ^ (15 - j)).sum } }

/-- R103: CRC16 loads `CRC_INIT`, takes the length byte and then the bytes of `hb` in arrival order, and XORs
`CRC_XOROUT` at the end. -/
def Obligations.CrcSixteenOverLengthAndBody : Prop :=
  ∀ (lengthField hb : Bits) (s : State), lengthField.length = 8 → hb.length = 8 * be lengthField →
    exec (.crc16 lengthField hb) s = .next
      { s with
        draft := { s.draft with
          crcCalc :=
            (BitVec.ofNat 8 (be lengthField) ::
                (List.range (be lengthField)).map fun i => BitVec.ofNat 8 (byteAt hb i)).foldl
              (fun (crc : BitVec 16) (x : Byte) =>
                (fun c : BitVec 16 => if c.getLsbD 15 then (c <<< 1) ^^^ s.cfg.crcPoly else c <<< 1)^[8]
                  (crc ^^^ (x.zeroExtend 16 <<< 8)))
              s.cfg.crcInit ^^^ s.cfg.crcXorOut } }

/-- R103's examples, with the source's literals. -/
def Obligations.CrcExamples : Prop :=
  ∀ c : Config, c.SourceCrc →
    crcOfBytes c [0x00#8] = 0x3363#16 ∧ crcOfBytes c [0x02#8, 0x12#8, 0x34#8] = 0x9355#16 ∧
    crcOfBytes c [0x02#8, 0x00#8, 0x00#8] = 0x8093#16 ∧ crcOfBytes c [0x01#8, 0xAB#8] = 0x4C8F#16 ∧
    crcOfBytes c [] = 0xE2F0#16 ∧
    crcOfBytes c [0x31#8, 0x32#8, 0x33#8, 0x34#8, 0x35#8, 0x36#8, 0x37#8, 0x38#8, 0x39#8] = 0x1A33#16

/-- R104: `crcValid` is the equality of the two values; X3 when they differ; nothing else changes. -/
def Obligations.CrcchkCompares : Prop :=
  ∀ (crcCalc crcRx : BitVec 16) (s : State),
    exec (.crcchk crcCalc crcRx) s = .next
      { s with
        draft := { s.draft with crcValid := decide (crcCalc = crcRx) }
        notes := s.notes ++ (if crcCalc = crcRx then [] else [.x3]) }

/-- R105: the bit-serial form over the received bits `lengthField ++ hb` gives the byte-wise form's `crcCalc`, for every
message and every constants. -/
def Obligations.CrcBitSerialFormAgrees : Prop :=
  ∀ (c : Config) (lengthField hb : Bits), lengthField.length = 8 → hb.length % 8 = 0 →
    crcCalcOf c lengthField hb = crcOfBits c (lengthField ++ hb)

/-- R107 (b): from a frame with a good checksum, inverting exactly one bit of `lengthField ++ hb ++ (CRC field)` with `L`
kept gives a bad one. -/
def Obligations.CrcDetectsSingleBitErrors : Prop :=
  ∀ (c : Config) (lengthField hb crcField : Bits) (i : Nat), c.SourceCrc →
    lengthField.length = 8 → hb.length % 8 = 0 → crcField.length = 16 →
    crcValidOf (crcCalcOf c lengthField hb) (BitVec.ofNat 16 (be crcField)) = true →
    i < (lengthField ++ hb ++ crcField).length →
    ∀ m, m = (lengthField ++ hb ++ crcField).set i (!(lengthField ++ hb ++ crcField).getD i false) →
      crcValidOf (crcCalcOf c (m.take 8) ((m.drop 8).take hb.length))
        (BitVec.ofNat 16 (be (m.drop (8 + hb.length)))) = false

/-! ### The sequencer's operations -/

/-- R117: EMIT presents the record once, after every earlier one, and changes no state of the block. -/
def Obligations.EmitPresentsRecord : Prop :=
  ∀ (record : FrameOut) (s : State), exec (.emit record) s = .next { s with out := s.out ++ [record] }

/-- R118: PASS re-emits the chunk unchanged, and reads and writes no state. -/
def Obligations.PassReemitsChunk : Prop :=
  ∀ (bits : Bits) (s : State), exec (.pass bits) s = .next { s with pt := s.pt ++ [bits] }

/-- R114, R26: START puts every state element at its reset value, running or not, and emits nothing. The rest is the
model's choice: the two signals it keeps become false (assumption 4) and the draft record empty (assumption 5); the inputs
to come (6), the notes (7), the refused inputs (8) and what the ports presented (20) survive a START. -/
def Obligations.StartResets : Prop :=
  ∀ s : State, ∃ t, exec .start s = .next t ∧
    t.buf = [] ∧ t.scan = 0 ∧ t.phase = .search ∧ t.lreg = none ∧ t.total = none ∧ t.run = true ∧
    t.matchSig = false ∧ t.completeSig = false ∧ t.draft = emptyDraft ∧
    t.cfg = s.cfg ∧ t.inp = s.inp ∧ t.out = s.out ∧ t.pt = s.pt ∧ t.notes = s.notes ∧ t.turnedAway = s.turnedAway

/-- R115: STOP clears `run` and nothing else; then every INGEST is refused without a change of the block's state or an
output, and no step of the sequencer runs. -/
def Obligations.StopEndsTheRun : Prop :=
  ∀ s : State, exec .stop s = .next { s with run := false } ∧
    (∀ bits, ingest bits { s with run := false } = .next
      { s with run := false, turnedAway := s.turnedAway ++ [.ingest bits] }) ∧
    ((s.inp = []) → step { s with run := false } = .next { s with run := false })

/-- R108: the table of one step of the sequencer. -/
def Obligations.DispatchFollowsTable : Prop :=
  ∀ s : State, s.Inv →
    (s.phase = .search → s.cfg.K ≤ s.buf.length - s.scan →
      ∃ t, exec .corr s = .next t ∧
        ((t.matchSig = true ∧ t.phase = .len ∧ s.dispatch = some t) ∨
         (t.matchSig = false ∧ t.phase = .search ∧ ∃ u, exec .adv t = .next u ∧ u.scan = s.scan + 1 ∧
           s.dispatch = some u))) ∧
    (s.phase = .search → s.buf.length - s.scan < s.cfg.K → s.dispatch = none) ∧
    (s.phase = .len → s.cfg.K + 8 ≤ s.buf.length - s.scan →
      ∃ t, exec .len s = .next t ∧ t.phase = .body ∧ s.dispatch = some t) ∧
    (s.phase = .len → s.buf.length - s.scan < s.cfg.K + 8 → s.dispatch = none) ∧
    (∀ n, s.phase = .body → s.total = some n → n ≤ s.buf.length - s.scan →
      ∃ t u r, exec .chk s = .next t ∧ exec .slice t = .next u ∧ u.phase = .search ∧ u.out = s.out ++ [r] ∧
        s.dispatch = some u) ∧
    (∀ n, s.phase = .body → s.total = some n → s.buf.length - s.scan < n → s.dispatch = none)

/-- R111: every change of the sequencing state in a step of the sequencer. A pending sync ends only in SLICE, which emits
its record; it is never abandoned. -/
def Obligations.PendingSyncEndsOnlyInSlice : Prop :=
  ∀ s t : State, s.Inv → s.dispatch = some t →
    (s.phase = .search → s.matchAt s.scan = some false →
      t.phase = .search ∧ t.scan = s.scan + 1 ∧ t.buf = s.buf ∧ t.out = s.out) ∧
    (s.phase = .search → s.matchAt s.scan = some true →
      t.phase = .len ∧ t.scan = s.scan ∧ t.buf = s.buf ∧ t.out = s.out) ∧
    (s.phase = .len → t.phase = .body ∧ t.scan = s.scan ∧ t.buf = s.buf ∧ t.out = s.out) ∧
    (s.phase = .body → t.phase = .search ∧ t.scan = 0 ∧
      ∃ n r, s.total = some n ∧ t.buf = s.buf.drop (s.scan + n) ∧ t.out = s.out ++ [r] ∧ r.totalBits = n)

/-- R109: every step that is not `wait` lowers `3 * live + (2 - i)`, so RUN ends within `3 * live + 2` of them, and the
block is then quiescent. -/
def Obligations.RunEndsQuiescent : Prop :=
  ∀ s : State, s.Inv →
    (∀ t, s.dispatch = some t → t.measure < s.measure) ∧
    s.measure ≤ 3 * (s.buf.length - s.scan) + 2 ∧
    s.runAll.Quiescent ∧
    ∃ (k : Nat) (t : State), k ≤ 3 * (s.buf.length - s.scan) + 2 ∧
      (fun o : Option State => o.bind State.dispatch)^[k] (some s) = some t ∧ t.Quiescent ∧ s.runAll = t.waited

/-- R110: INGEST passes the chunk, appends it and runs until quiescent, as one step; a stopped block refuses it. -/
def Obligations.IngestIsOneAtomicStep : Prop :=
  ∀ (bits : Bits) (s : State) (rest : List Input), s.Inv → s.inp = .ingest bits :: rest →
    (s.run = true → s.fits bits = true → ∃ t, step s = .next t ∧ t.Quiescent ∧
      t = ({ s with inp := rest, pt := s.pt ++ [bits], buf := s.buf ++ bits } : State).runAll ∧
      t.pt = s.pt ++ [bits] ∧ t.inp = rest) ∧
    (s.run = false → step s = .next { s with inp := rest, turnedAway := s.turnedAway ++ [.ingest bits] })

/-- 00_scope.md R9, R113: with no input waiting a running block makes the sequencer's step, and a quiescent or stopped one
changes nothing. -/
def Obligations.StepWithoutInput : Prop :=
  ∀ s : State, s.inp = [] →
    (∀ t, s.run = true → s.dispatch = some t → step s = .next t) ∧
    (s.run = true → s.Quiescent → step s = .next s) ∧
    (s.run = false → step s = .next s)

/-- The step runs the decoded instruction: an issued slot that decodes to an instruction with well-formed operands is
that instruction's meaning on the state without the slot, when the block runs or the instruction is START or STOP. -/
def Obligations.StepRunsDecodedInstruction : Prop :=
  ∀ (s : State) (slot : Slot) (rest : List Input) (i : Instr),
    s.inp = .issue slot :: rest → decode slot = .ok i → i.wellFormed = true →
    s.run = true ∨ i = .start ∨ i = .stop →
    step s = exec i { s with inp := rest }

/-- R115, R129 and the model's choice (assumption 8): an operation other than START and STOP issued to a stopped block
does not run; and (assumption 2) a slot with no operation or with operands of no legal shape is refused. -/
def Obligations.SlotsThatDoNotRun : Prop :=
  ∀ (s : State) (slot : Slot) (rest : List Input), s.inp = .issue slot :: rest →
    (∀ i, decode slot = .ok i → i.wellFormed = true → s.run = false → i ≠ .start → i ≠ .stop →
      step s = .next { s with inp := rest, turnedAway := s.turnedAway ++ [.issue slot] }) ∧
    (∀ e, decode slot = .error e → step s = .refused (.undecodable e)) ∧
    (∀ i, decode slot = .ok i → i.wellFormed = false → step s = .refused .illFormedOperands)

/-! ### Encodings -/

/-- Decoding an encoded instruction gives it back, with every operand at every value; and a slot that decodes is the
encoded instruction's table and word. -/
def Obligations.DecodeEncodeAgree : Prop :=
  (∀ i : Instr, decode (encode i) = .ok i) ∧
  ∀ (slot : Slot) (i : Instr), decode slot = .ok i → (encode i).table = slot.table ∧ (encode i).word = slot.word

/-- Words written out from R56 and R47, and the unassigned selectors. -/
def Obligations.TableWordsDecode : Prop :=
  decodeTableWord 8 0b00000 = some (.append []) ∧ decodeTableWord 8 0b00001 = some (.consume 0) ∧
  decodeTableWord 8 0b00010 = some .corr ∧ decodeTableWord 8 0b00011 = some .adv ∧
  decodeTableWord 8 0b00100 = some .len ∧ decodeTableWord 8 0b00101 = some .chk ∧
  decodeTableWord 8 0b00110 = some .slice ∧ decodeTableWord 8 0b01000 = some (.fcf []) ∧
  decodeTableWord 8 0b10011 = some (.crcchk 0#16 0#16) ∧ decodeTableWord 8 0b10110 = some .start ∧
  decodeTableWord 8 0b10111 = some .stop ∧ decodeTableWord 8 0b11000 = none ∧ decodeTableWord 8 0b11111 = none ∧
  decodeTableWord 16 0b0000000000000011 = some (.ftypeMacCommand 0#13) ∧
  decodeTableWord 16 0b0000000000100000 = some (.ackrqTrue 0#10 0#5) ∧
  decodeTableWord 16 0b0000100000000000 = some (.damShort16 0#4 0#10) ∧
  decodeTableWord 16 0b1100000000000000 = some (.samLong64 0#14)

/-! ### Invariants and the whole machine -/

/-- R26, R135 and assumption 1: what the reset state holds, and that it is a good state. -/
def Obligations.ResetStateIsGood : Prop :=
  State.reset.buf = [] ∧ State.reset.scan = 0 ∧ State.reset.phase = .search ∧ State.reset.lreg = none ∧
  State.reset.total = none ∧ State.reset.run = true ∧ State.reset.Quiescent ∧ State.reset.cfg.SourceCrc ∧
  State.reset.Inv ∧ State.reset.R24

/-- R24 (a), (b), R10, R22, R123: every step keeps the invariant, whatever operation it runs. -/
def Obligations.EveryStepKeepsInvariant : Prop :=
  ∀ s t : State, s.Inv → step s = .next t → t.Inv

/-- R24 (a) to (e): every step keeps the whole of it, but for a CONSUME issued alone inside a pending frame. -/
def Obligations.EveryStepKeepsPendingFrame : Prop :=
  ∀ s t : State, s.R24 → s.cutsPendingFrame = false → step s = .next t → t.R24

/-- R24 (g), R113, R144: how many bits are live when the block is quiescent. -/
def Obligations.QuiescentBounds : Prop :=
  ∀ s : State, s.R24 → s.Quiescent →
    (s.phase = .search → s.buf.length - s.scan ≤ s.cfg.K - 1) ∧
    (s.phase = .len → s.cfg.K ≤ s.buf.length - s.scan ∧ s.buf.length - s.scan ≤ s.cfg.K + 7) ∧
    (s.phase = .body → ∃ n, s.total = some n ∧ s.cfg.K + 8 ≤ s.buf.length - s.scan ∧
      s.buf.length - s.scan ≤ n - 1 ∧ s.buf.length - s.scan ≤ s.cfg.K + 2063)

/-- R11, R24 (f): held bits never change; what the sequencer leaves is a suffix of what was held, what an ingest call
leaves is a suffix of what was held and delivered, and so of the whole stream passed. -/
def Obligations.BufferIsSuffixOfStream : Prop :=
  (∀ s t : State, s.Inv → s.dispatch = some t → t.buf <:+ s.buf) ∧
  ∀ (bits : Bits) (s t : State), s.Inv → s.run = true → ingest bits s = .next t →
    t.buf <:+ s.buf ++ bits ∧ t.pt = s.pt ++ [bits] ∧ (s.buf <:+ s.pt.flatten → t.buf <:+ t.pt.flatten)

/-- R19, R40, R141: no step changes the configuration. -/
def Obligations.ConfigurationIsImmutable : Prop :=
  ∀ s t : State, s.Inv → step s = .next t → t.cfg = s.cfg

/-- R22, R38, R117: no step takes back or changes a record that was emitted, nor a chunk that was passed. -/
def Obligations.OutputsAreNeverWithdrawn : Prop :=
  ∀ s t : State, s.Inv → step s = .next t → s.out <+: t.out ∧ s.pt <+: t.pt

/-- R119, R127: conditions, and the model's status signals and draft record (assumptions 4, 5 and 7), steer nothing:
states that differ in them alone take the same step of the sequencer, but for them, and so the same step of the machine,
whatever input it takes: an ingest call, an operation issued alone, or none. -/
def Obligations.ConditionsChangeNoControl : Prop :=
  ∀ (s s' : State) (n : List Condition) (m c : Bool) (d : FrameOut), s.Inv →
    s' = { s with notes := n, matchSig := m, completeSig := c, draft := d } →
    s'.dispatch.map State.visible = s.dispatch.map State.visible ∧
    (∀ t, step s = .next t → ∃ n' m' c' d',
      step s' = .next { t with notes := n', matchSig := m', completeSig := c', draft := d' }) ∧
    ∀ r, step s = .refused r → step s' = .refused r

/-- R42: an empty chunk changes nothing of a quiescent block and emits nothing. -/
def Obligations.EmptyChunkChangesNothing : Prop :=
  ∀ s : State, s.Inv → s.Quiescent → s.run = true →
    ∃ t, ingest [] s = .next t ∧ t.visible = s.visible ∧ t.cfg = s.cfg ∧ t.pt = s.pt ++ [[]]

/-- R41: chunk boundaries do not matter. -/
def Obligations.ChunkBoundariesDoNotMatter : Prop :=
  ∀ (s : State) (as bs : List Bits), s.Inv → s.Quiescent → s.run = true → s.cfg.cap = none →
    as.flatten = bs.flatten →
    ∃ t u, feed as s = .next t ∧ feed bs s = .next u ∧
      t.out = u.out ∧ t.phase = u.phase ∧ t.lreg = u.lreg ∧ t.total = u.total ∧ t.liveBits = u.liveBits

/-- R25: only the live bits matter: a block that dropped its dead bits early emits the same records and holds the same
pending state and live bits after every input. -/
def Obligations.DeadBitsDoNotMatter : Prop :=
  ∀ (s : State) (chunks : List Bits), s.Inv → s.run = true → s.cfg.cap = none →
    ∃ t u, feed chunks s = .next t ∧ feed chunks s.trimmed = .next u ∧
      t.out = u.out ∧ t.phase = u.phase ∧ t.lreg = u.lreg ∧ t.total = u.total ∧ t.liveBits = u.liveBits

/-- R112 (b), (c): forgetting the pending sync, with or without `scan`, and searching again gives the same frames and the
same state. -/
def Obligations.ForgettingThePendingSyncGivesTheSame : Prop :=
  ∀ s : State, s.R24 →
    ({ s with phase := .search, lreg := none, total := none } : State).runAll.visible = s.runAll.visible ∧
    ({ s with phase := .search, scan := 0, lreg := none, total := none } : State).runAll.visible = s.runAll.visible

/-- R19, R137, R5: an illegal configuration is refused at construction; a legal one builds a block that is not started,
holds the given pattern, its leftmost character first (R7, R57), and the given threshold and the source's CRC literals,
and keeps the invariant. The model's choice: which reason an illegal pattern gives when the threshold is illegal too, and
that a byte list is no pattern (assumption 22); the fields but `run` before START (assumption 17). -/
def Obligations.ConstructionChecksConfiguration : Prop :=
  ∀ (pattern : List Char) (threshold : Int),
    (threshold < 0 → ∀ s, construct pattern threshold ≠ .ok s) ∧
    ((∃ x ∈ pattern, x ≠ '0' ∧ x ≠ '1' ∧ x ≠ ' ') → construct pattern threshold = .error .nonBinaryPattern) ∧
    ((∀ x ∈ pattern, x = ' ') → construct pattern threshold = .error .emptyPattern) ∧
    ((∀ x ∈ pattern, x = '0' ∨ x = '1' ∨ x = ' ') → (∃ x ∈ pattern, x ≠ ' ') →
      (threshold < 0 → construct pattern threshold = .error .negativeThreshold) ∧
      (0 ≤ threshold → ∃ s, construct pattern threshold = .ok s ∧
        s.cfg.pattern = (pattern.filter fun x => x != ' ').map (fun x => x == '1') ∧
        (s.cfg.threshold : Int) = threshold ∧
        s.cfg.SourceCrc ∧ s.cfg.cap = none ∧ s.run = false ∧ s.buf = [] ∧ s.Inv))
end

