-- ==== Sys2Proof/Laws/Bits.lean ====
section
/-! SUPPORT. What the notation of 00_scope.md R7 and R8 says of the model's bit operations. -/

namespace Sys2Proof.Machine

theorem slice_eq_some {s : Bits} {a n : Nat} {w : Bits} :
    slice s a n = some w ↔ a + n ≤ s.length ∧ w = (s.drop a).take n := by
  unfold slice
  split <;> simp_all [eq_comm]

theorem slice_eq_none {s : Bits} {a n : Nat} : slice s a n = none ↔ s.length < a + n := by
  unfold slice
  split <;> simp <;> omega

theorem slice_of_le {s : Bits} {a n : Nat} (h : a + n ≤ s.length) : slice s a n = some ((s.drop a).take n) :=
  slice_eq_some.2 ⟨h, rfl⟩

theorem slice_length {s : Bits} {a n : Nat} {w : Bits} (h : slice s a n = some w) : w.length = n := by
  obtain ⟨hle, rfl⟩ := slice_eq_some.1 h
  simp
  omega

/-- Bits that are held do not change when more arrive (10_state.md R11). -/
theorem slice_append {s : Bits} {a n : Nat} {w : Bits} (u : Bits) (h : slice s a n = some w) :
    slice (s ++ u) a n = some w := by
  obtain ⟨hle, rfl⟩ := slice_eq_some.1 h
  refine slice_eq_some.2 ⟨by simp; omega, ?_⟩
  rw [List.drop_append_of_le_length (by omega), List.take_append_of_le_length (by simp; omega)]

/-- CONSUME renumbers: the bit at old offset `m + i` is at offset `i` (20_memory.md R31). -/
theorem slice_drop (s : Bits) (m a n : Nat) (h : m ≤ s.length) : slice (s.drop m) a n = slice s (m + a) n := by
  unfold slice
  simp only [List.length_drop, List.drop_drop]
  by_cases h1 : a + n ≤ s.length - m
  · rw [if_pos h1, if_pos (by omega)]
  · rw [if_neg h1, if_neg (by omega)]

theorem be_foldl (s : Bits) (acc : Nat) :
    s.foldl (fun acc b => 2 * acc + b.toNat) acc = acc * 2 ^ s.length + be s := by
  induction s generalizing acc with
  | nil => simp [be]
  | cons b s ih =>
    simp only [be, List.foldl_cons, List.length_cons]
    rw [ih, ih (2 * 0 + b.toNat), pow_succ]
    ring

theorem be_cons (b : Bool) (s : Bits) : be (b :: s) = b.toNat * 2 ^ s.length + be s := by
  rw [be, List.foldl_cons, be_foldl]
  simp

theorem be_append (s u : Bits) : be (s ++ u) = be s * 2 ^ u.length + be u := by
  rw [be, List.foldl_append, be_foldl]
  rfl

theorem be_lt (s : Bits) : be s < 2 ^ s.length := by
  induction s with
  | nil => simp [be]
  | cons b s ih =>
    rw [be_cons, List.length_cons, pow_succ]
    have : b.toNat ≤ 1 := Bool.toNat_le b
    nlinarith [Nat.two_pow_pos s.length]

theorem mismatches_le (w p : Bits) : mismatches w p ≤ p.length := by
  unfold mismatches
  exact le_trans List.count_le_length (by simp)

theorem matchAt_eq_some {s : State} {i : Nat} {b : Bool} :
    s.matchAt i = some b ↔
      i + s.cfg.K ≤ s.buf.length ∧ b = windowMatches s.cfg ((s.buf.drop i).take s.cfg.K) := by
  simp only [State.matchAt, State.memRead, Option.map_eq_some_iff, slice_eq_some]
  constructor
  · rintro ⟨w, ⟨h, rfl⟩, rfl⟩
    exact ⟨h, rfl⟩
  · rintro ⟨h, rfl⟩
    exact ⟨_, ⟨h, rfl⟩, rfl⟩

theorem matchAt_isSome {s : State} {i : Nat} (h : i + s.cfg.K ≤ s.buf.length) : ∃ b, s.matchAt i = some b :=
  ⟨_, matchAt_eq_some.2 ⟨h, rfl⟩⟩

end Sys2Proof.Machine
end

