-- ==== Sys2Proof/Laws/State.lean ====
section
/-! SUPPORT. One lemma for each field after each named update of the state. -/

namespace Sys2Proof.Machine

variable (s : State)

@[simp] theorem State.note_cfg (c : List Condition) : (s.note c).cfg = s.cfg := rfl
@[simp] theorem State.note_buf (c : List Condition) : (s.note c).buf = s.buf := rfl
@[simp] theorem State.note_scan (c : List Condition) : (s.note c).scan = s.scan := rfl
@[simp] theorem State.note_phase (c : List Condition) : (s.note c).phase = s.phase := rfl
@[simp] theorem State.note_lreg (c : List Condition) : (s.note c).lreg = s.lreg := rfl
@[simp] theorem State.note_total (c : List Condition) : (s.note c).total = s.total := rfl
@[simp] theorem State.note_run (c : List Condition) : (s.note c).run = s.run := rfl
@[simp] theorem State.note_matchSig (c : List Condition) : (s.note c).matchSig = s.matchSig := rfl
@[simp] theorem State.note_completeSig (c : List Condition) : (s.note c).completeSig = s.completeSig := rfl
@[simp] theorem State.note_draft (c : List Condition) : (s.note c).draft = s.draft := rfl
@[simp] theorem State.note_inp (c : List Condition) : (s.note c).inp = s.inp := rfl
@[simp] theorem State.note_out (c : List Condition) : (s.note c).out = s.out := rfl
@[simp] theorem State.note_pt (c : List Condition) : (s.note c).pt = s.pt := rfl
@[simp] theorem State.note_notes (c : List Condition) : (s.note c).notes = s.notes ++ c := rfl
@[simp] theorem State.note_turnedAway (c : List Condition) : (s.note c).turnedAway = s.turnedAway := rfl

@[simp] theorem State.appendBits_cfg (b : Bits) : (s.appendBits b).cfg = s.cfg := rfl
@[simp] theorem State.appendBits_buf (b : Bits) : (s.appendBits b).buf = s.buf ++ b := rfl
@[simp] theorem State.appendBits_scan (b : Bits) : (s.appendBits b).scan = s.scan := rfl
@[simp] theorem State.appendBits_phase (b : Bits) : (s.appendBits b).phase = s.phase := rfl
@[simp] theorem State.appendBits_lreg (b : Bits) : (s.appendBits b).lreg = s.lreg := rfl
@[simp] theorem State.appendBits_total (b : Bits) : (s.appendBits b).total = s.total := rfl
@[simp] theorem State.appendBits_run (b : Bits) : (s.appendBits b).run = s.run := rfl
@[simp] theorem State.appendBits_matchSig (b : Bits) : (s.appendBits b).matchSig = s.matchSig := rfl
@[simp] theorem State.appendBits_completeSig (b : Bits) : (s.appendBits b).completeSig = s.completeSig := rfl
@[simp] theorem State.appendBits_draft (b : Bits) : (s.appendBits b).draft = s.draft := rfl
@[simp] theorem State.appendBits_inp (b : Bits) : (s.appendBits b).inp = s.inp := rfl
@[simp] theorem State.appendBits_out (b : Bits) : (s.appendBits b).out = s.out := rfl
@[simp] theorem State.appendBits_pt (b : Bits) : (s.appendBits b).pt = s.pt := rfl
@[simp] theorem State.appendBits_notes (b : Bits) : (s.appendBits b).notes = s.notes := rfl
@[simp] theorem State.appendBits_turnedAway (b : Bits) : (s.appendBits b).turnedAway = s.turnedAway := rfl

@[simp] theorem State.consumeBits_cfg (n : Nat) : (s.consumeBits n).cfg = s.cfg := rfl
@[simp] theorem State.consumeBits_buf (n : Nat) : (s.consumeBits n).buf = s.buf.drop (min n s.buf.length) := rfl
@[simp] theorem State.consumeBits_scan (n : Nat) : (s.consumeBits n).scan = s.scan - min s.scan (min n s.buf.length) := rfl
@[simp] theorem State.consumeBits_phase (n : Nat) : (s.consumeBits n).phase = s.phase := rfl
@[simp] theorem State.consumeBits_lreg (n : Nat) : (s.consumeBits n).lreg = s.lreg := rfl
@[simp] theorem State.consumeBits_total (n : Nat) : (s.consumeBits n).total = s.total := rfl
@[simp] theorem State.consumeBits_run (n : Nat) : (s.consumeBits n).run = s.run := rfl
@[simp] theorem State.consumeBits_matchSig (n : Nat) : (s.consumeBits n).matchSig = s.matchSig := rfl
@[simp] theorem State.consumeBits_completeSig (n : Nat) : (s.consumeBits n).completeSig = s.completeSig := rfl
@[simp] theorem State.consumeBits_draft (n : Nat) : (s.consumeBits n).draft = s.draft := rfl
@[simp] theorem State.consumeBits_inp (n : Nat) : (s.consumeBits n).inp = s.inp := rfl
@[simp] theorem State.consumeBits_out (n : Nat) : (s.consumeBits n).out = s.out := rfl
@[simp] theorem State.consumeBits_pt (n : Nat) : (s.consumeBits n).pt = s.pt := rfl
@[simp] theorem State.consumeBits_notes (n : Nat) : (s.consumeBits n).notes = s.notes := rfl
@[simp] theorem State.consumeBits_turnedAway (n : Nat) : (s.consumeBits n).turnedAway = s.turnedAway := rfl

@[simp] theorem State.advance_cfg : s.advance.cfg = s.cfg := rfl
@[simp] theorem State.advance_buf : s.advance.buf = s.buf := rfl
@[simp] theorem State.advance_scan : s.advance.scan = s.scan + 1 := rfl
@[simp] theorem State.advance_phase : s.advance.phase = s.phase := rfl
@[simp] theorem State.advance_lreg : s.advance.lreg = s.lreg := rfl
@[simp] theorem State.advance_total : s.advance.total = s.total := rfl
@[simp] theorem State.advance_run : s.advance.run = s.run := rfl
@[simp] theorem State.advance_matchSig : s.advance.matchSig = s.matchSig := rfl
@[simp] theorem State.advance_completeSig : s.advance.completeSig = s.completeSig := rfl
@[simp] theorem State.advance_draft : s.advance.draft = s.draft := rfl
@[simp] theorem State.advance_inp : s.advance.inp = s.inp := rfl
@[simp] theorem State.advance_out : s.advance.out = s.out := rfl
@[simp] theorem State.advance_pt : s.advance.pt = s.pt := rfl
@[simp] theorem State.advance_notes : s.advance.notes = s.notes := rfl
@[simp] theorem State.advance_turnedAway : s.advance.turnedAway = s.turnedAway := rfl

@[simp] theorem State.emitRecord_cfg (r : FrameOut) : (s.emitRecord r).cfg = s.cfg := rfl
@[simp] theorem State.emitRecord_buf (r : FrameOut) : (s.emitRecord r).buf = s.buf := rfl
@[simp] theorem State.emitRecord_scan (r : FrameOut) : (s.emitRecord r).scan = s.scan := rfl
@[simp] theorem State.emitRecord_phase (r : FrameOut) : (s.emitRecord r).phase = s.phase := rfl
@[simp] theorem State.emitRecord_lreg (r : FrameOut) : (s.emitRecord r).lreg = s.lreg := rfl
@[simp] theorem State.emitRecord_total (r : FrameOut) : (s.emitRecord r).total = s.total := rfl
@[simp] theorem State.emitRecord_run (r : FrameOut) : (s.emitRecord r).run = s.run := rfl
@[simp] theorem State.emitRecord_matchSig (r : FrameOut) : (s.emitRecord r).matchSig = s.matchSig := rfl
@[simp] theorem State.emitRecord_completeSig (r : FrameOut) : (s.emitRecord r).completeSig = s.completeSig := rfl
@[simp] theorem State.emitRecord_draft (r : FrameOut) : (s.emitRecord r).draft = s.draft := rfl
@[simp] theorem State.emitRecord_inp (r : FrameOut) : (s.emitRecord r).inp = s.inp := rfl
@[simp] theorem State.emitRecord_out (r : FrameOut) : (s.emitRecord r).out = s.out ++ [r] := rfl
@[simp] theorem State.emitRecord_pt (r : FrameOut) : (s.emitRecord r).pt = s.pt := rfl
@[simp] theorem State.emitRecord_notes (r : FrameOut) : (s.emitRecord r).notes = s.notes := rfl
@[simp] theorem State.emitRecord_turnedAway (r : FrameOut) : (s.emitRecord r).turnedAway = s.turnedAway := rfl

@[simp] theorem State.passBits_cfg (b : Bits) : (s.passBits b).cfg = s.cfg := rfl
@[simp] theorem State.passBits_buf (b : Bits) : (s.passBits b).buf = s.buf := rfl
@[simp] theorem State.passBits_scan (b : Bits) : (s.passBits b).scan = s.scan := rfl
@[simp] theorem State.passBits_phase (b : Bits) : (s.passBits b).phase = s.phase := rfl
@[simp] theorem State.passBits_lreg (b : Bits) : (s.passBits b).lreg = s.lreg := rfl
@[simp] theorem State.passBits_total (b : Bits) : (s.passBits b).total = s.total := rfl
@[simp] theorem State.passBits_run (b : Bits) : (s.passBits b).run = s.run := rfl
@[simp] theorem State.passBits_matchSig (b : Bits) : (s.passBits b).matchSig = s.matchSig := rfl
@[simp] theorem State.passBits_completeSig (b : Bits) : (s.passBits b).completeSig = s.completeSig := rfl
@[simp] theorem State.passBits_draft (b : Bits) : (s.passBits b).draft = s.draft := rfl
@[simp] theorem State.passBits_inp (b : Bits) : (s.passBits b).inp = s.inp := rfl
@[simp] theorem State.passBits_out (b : Bits) : (s.passBits b).out = s.out := rfl
@[simp] theorem State.passBits_pt (b : Bits) : (s.passBits b).pt = s.pt ++ [b] := rfl
@[simp] theorem State.passBits_notes (b : Bits) : (s.passBits b).notes = s.notes := rfl
@[simp] theorem State.passBits_turnedAway (b : Bits) : (s.passBits b).turnedAway = s.turnedAway := rfl

@[simp] theorem State.started_cfg : s.started.cfg = s.cfg := rfl
@[simp] theorem State.started_buf : s.started.buf = [] := rfl
@[simp] theorem State.started_scan : s.started.scan = 0 := rfl
@[simp] theorem State.started_phase : s.started.phase = .search := rfl
@[simp] theorem State.started_lreg : s.started.lreg = none := rfl
@[simp] theorem State.started_total : s.started.total = none := rfl
@[simp] theorem State.started_run : s.started.run = true := rfl
@[simp] theorem State.started_matchSig : s.started.matchSig = false := rfl
@[simp] theorem State.started_completeSig : s.started.completeSig = false := rfl
@[simp] theorem State.started_draft : s.started.draft = emptyDraft := rfl
@[simp] theorem State.started_inp : s.started.inp = s.inp := rfl
@[simp] theorem State.started_out : s.started.out = s.out := rfl
@[simp] theorem State.started_pt : s.started.pt = s.pt := rfl
@[simp] theorem State.started_notes : s.started.notes = s.notes := rfl
@[simp] theorem State.started_turnedAway : s.started.turnedAway = s.turnedAway := rfl

@[simp] theorem State.stopped_cfg : s.stopped.cfg = s.cfg := rfl
@[simp] theorem State.stopped_buf : s.stopped.buf = s.buf := rfl
@[simp] theorem State.stopped_scan : s.stopped.scan = s.scan := rfl
@[simp] theorem State.stopped_phase : s.stopped.phase = s.phase := rfl
@[simp] theorem State.stopped_lreg : s.stopped.lreg = s.lreg := rfl
@[simp] theorem State.stopped_total : s.stopped.total = s.total := rfl
@[simp] theorem State.stopped_run : s.stopped.run = false := rfl
@[simp] theorem State.stopped_matchSig : s.stopped.matchSig = s.matchSig := rfl
@[simp] theorem State.stopped_completeSig : s.stopped.completeSig = s.completeSig := rfl
@[simp] theorem State.stopped_draft : s.stopped.draft = s.draft := rfl
@[simp] theorem State.stopped_inp : s.stopped.inp = s.inp := rfl
@[simp] theorem State.stopped_out : s.stopped.out = s.out := rfl
@[simp] theorem State.stopped_pt : s.stopped.pt = s.pt := rfl
@[simp] theorem State.stopped_notes : s.stopped.notes = s.notes := rfl
@[simp] theorem State.stopped_turnedAway : s.stopped.turnedAway = s.turnedAway := rfl

@[simp] theorem State.turnAway_cfg (i : Input) : (s.turnAway i).cfg = s.cfg := rfl
@[simp] theorem State.turnAway_buf (i : Input) : (s.turnAway i).buf = s.buf := rfl
@[simp] theorem State.turnAway_scan (i : Input) : (s.turnAway i).scan = s.scan := rfl
@[simp] theorem State.turnAway_phase (i : Input) : (s.turnAway i).phase = s.phase := rfl
@[simp] theorem State.turnAway_lreg (i : Input) : (s.turnAway i).lreg = s.lreg := rfl
@[simp] theorem State.turnAway_total (i : Input) : (s.turnAway i).total = s.total := rfl
@[simp] theorem State.turnAway_run (i : Input) : (s.turnAway i).run = s.run := rfl
@[simp] theorem State.turnAway_matchSig (i : Input) : (s.turnAway i).matchSig = s.matchSig := rfl
@[simp] theorem State.turnAway_completeSig (i : Input) : (s.turnAway i).completeSig = s.completeSig := rfl
@[simp] theorem State.turnAway_draft (i : Input) : (s.turnAway i).draft = s.draft := rfl
@[simp] theorem State.turnAway_inp (i : Input) : (s.turnAway i).inp = s.inp := rfl
@[simp] theorem State.turnAway_out (i : Input) : (s.turnAway i).out = s.out := rfl
@[simp] theorem State.turnAway_pt (i : Input) : (s.turnAway i).pt = s.pt := rfl
@[simp] theorem State.turnAway_notes (i : Input) : (s.turnAway i).notes = s.notes := rfl
@[simp] theorem State.turnAway_turnedAway (i : Input) : (s.turnAway i).turnedAway = s.turnedAway ++ [i] := rfl

@[simp] theorem State.setDraft_cfg (f : FrameOut) : (s.setDraft f).cfg = s.cfg := rfl
@[simp] theorem State.setDraft_buf (f : FrameOut) : (s.setDraft f).buf = s.buf := rfl
@[simp] theorem State.setDraft_scan (f : FrameOut) : (s.setDraft f).scan = s.scan := rfl
@[simp] theorem State.setDraft_phase (f : FrameOut) : (s.setDraft f).phase = s.phase := rfl
@[simp] theorem State.setDraft_lreg (f : FrameOut) : (s.setDraft f).lreg = s.lreg := rfl
@[simp] theorem State.setDraft_total (f : FrameOut) : (s.setDraft f).total = s.total := rfl
@[simp] theorem State.setDraft_run (f : FrameOut) : (s.setDraft f).run = s.run := rfl
@[simp] theorem State.setDraft_matchSig (f : FrameOut) : (s.setDraft f).matchSig = s.matchSig := rfl
@[simp] theorem State.setDraft_completeSig (f : FrameOut) : (s.setDraft f).completeSig = s.completeSig := rfl
@[simp] theorem State.setDraft_draft (f : FrameOut) : (s.setDraft f).draft = f := rfl
@[simp] theorem State.setDraft_inp (f : FrameOut) : (s.setDraft f).inp = s.inp := rfl
@[simp] theorem State.setDraft_out (f : FrameOut) : (s.setDraft f).out = s.out := rfl
@[simp] theorem State.setDraft_pt (f : FrameOut) : (s.setDraft f).pt = s.pt := rfl
@[simp] theorem State.setDraft_notes (f : FrameOut) : (s.setDraft f).notes = s.notes := rfl
@[simp] theorem State.setDraft_turnedAway (f : FrameOut) : (s.setDraft f).turnedAway = s.turnedAway := rfl

@[simp] theorem State.setHeader_cfg (h : DecodedHeader) : (s.setHeader h).cfg = s.cfg := rfl
@[simp] theorem State.setHeader_buf (h : DecodedHeader) : (s.setHeader h).buf = s.buf := rfl
@[simp] theorem State.setHeader_scan (h : DecodedHeader) : (s.setHeader h).scan = s.scan := rfl
@[simp] theorem State.setHeader_phase (h : DecodedHeader) : (s.setHeader h).phase = s.phase := rfl
@[simp] theorem State.setHeader_lreg (h : DecodedHeader) : (s.setHeader h).lreg = s.lreg := rfl
@[simp] theorem State.setHeader_total (h : DecodedHeader) : (s.setHeader h).total = s.total := rfl
@[simp] theorem State.setHeader_run (h : DecodedHeader) : (s.setHeader h).run = s.run := rfl
@[simp] theorem State.setHeader_matchSig (h : DecodedHeader) : (s.setHeader h).matchSig = s.matchSig := rfl
@[simp] theorem State.setHeader_completeSig (h : DecodedHeader) : (s.setHeader h).completeSig = s.completeSig := rfl
@[simp] theorem State.setHeader_draft (h : DecodedHeader) : (s.setHeader h).draft = { s.draft with header := h } := rfl
@[simp] theorem State.setHeader_inp (h : DecodedHeader) : (s.setHeader h).inp = s.inp := rfl
@[simp] theorem State.setHeader_out (h : DecodedHeader) : (s.setHeader h).out = s.out := rfl
@[simp] theorem State.setHeader_pt (h : DecodedHeader) : (s.setHeader h).pt = s.pt := rfl
@[simp] theorem State.setHeader_notes (h : DecodedHeader) : (s.setHeader h).notes = s.notes := rfl
@[simp] theorem State.setHeader_turnedAway (h : DecodedHeader) : (s.setHeader h).turnedAway = s.turnedAway := rfl

@[simp] theorem State.lengthRead_cfg (f : Bits) : (s.lengthRead f).cfg = s.cfg := rfl
@[simp] theorem State.lengthRead_buf (f : Bits) : (s.lengthRead f).buf = s.buf := rfl
@[simp] theorem State.lengthRead_scan (f : Bits) : (s.lengthRead f).scan = s.scan := rfl
@[simp] theorem State.lengthRead_phase (f : Bits) : (s.lengthRead f).phase = .body := rfl
@[simp] theorem State.lengthRead_lreg (f : Bits) : (s.lengthRead f).lreg = some (BitVec.ofNat 8 (be f)) := rfl
@[simp] theorem State.lengthRead_total (f : Bits) : (s.lengthRead f).total = some (frameBits s.cfg.K (BitVec.ofNat 8 (be f))) := rfl
@[simp] theorem State.lengthRead_run (f : Bits) : (s.lengthRead f).run = s.run := rfl
@[simp] theorem State.lengthRead_matchSig (f : Bits) : (s.lengthRead f).matchSig = s.matchSig := rfl
@[simp] theorem State.lengthRead_completeSig (f : Bits) : (s.lengthRead f).completeSig = s.completeSig := rfl
@[simp] theorem State.lengthRead_draft (f : Bits) : (s.lengthRead f).draft = s.draft := rfl
@[simp] theorem State.lengthRead_inp (f : Bits) : (s.lengthRead f).inp = s.inp := rfl
@[simp] theorem State.lengthRead_out (f : Bits) : (s.lengthRead f).out = s.out := rfl
@[simp] theorem State.lengthRead_pt (f : Bits) : (s.lengthRead f).pt = s.pt := rfl
@[simp] theorem State.lengthRead_notes (f : Bits) : (s.lengthRead f).notes = s.notes := rfl
@[simp] theorem State.lengthRead_turnedAway (f : Bits) : (s.lengthRead f).turnedAway = s.turnedAway := rfl

@[simp] theorem State.release_cfg (n : Nat) : (s.release n).cfg = s.cfg := rfl
@[simp] theorem State.release_buf (n : Nat) : (s.release n).buf = s.buf.drop (min n s.buf.length) := rfl
@[simp] theorem State.release_scan (n : Nat) : (s.release n).scan = 0 := rfl
@[simp] theorem State.release_phase (n : Nat) : (s.release n).phase = .search := rfl
@[simp] theorem State.release_lreg (n : Nat) : (s.release n).lreg = none := rfl
@[simp] theorem State.release_total (n : Nat) : (s.release n).total = none := rfl
@[simp] theorem State.release_run (n : Nat) : (s.release n).run = s.run := rfl
@[simp] theorem State.release_matchSig (n : Nat) : (s.release n).matchSig = s.matchSig := rfl
@[simp] theorem State.release_completeSig (n : Nat) : (s.release n).completeSig = s.completeSig := rfl
@[simp] theorem State.release_draft (n : Nat) : (s.release n).draft = s.draft := rfl
@[simp] theorem State.release_inp (n : Nat) : (s.release n).inp = s.inp := rfl
@[simp] theorem State.release_out (n : Nat) : (s.release n).out = s.out := rfl
@[simp] theorem State.release_pt (n : Nat) : (s.release n).pt = s.pt := rfl
@[simp] theorem State.release_notes (n : Nat) : (s.release n).notes = s.notes := rfl
@[simp] theorem State.release_turnedAway (n : Nat) : (s.release n).turnedAway = s.turnedAway := rfl

@[simp] theorem State.taken_cfg : s.taken.cfg = s.cfg := rfl
@[simp] theorem State.taken_buf : s.taken.buf = s.buf := rfl
@[simp] theorem State.taken_scan : s.taken.scan = s.scan := rfl
@[simp] theorem State.taken_phase : s.taken.phase = s.phase := rfl
@[simp] theorem State.taken_lreg : s.taken.lreg = s.lreg := rfl
@[simp] theorem State.taken_total : s.taken.total = s.total := rfl
@[simp] theorem State.taken_run : s.taken.run = s.run := rfl
@[simp] theorem State.taken_matchSig : s.taken.matchSig = s.matchSig := rfl
@[simp] theorem State.taken_completeSig : s.taken.completeSig = s.completeSig := rfl
@[simp] theorem State.taken_draft : s.taken.draft = s.draft := rfl
@[simp] theorem State.taken_inp : s.taken.inp = s.inp.tail := rfl
@[simp] theorem State.taken_out : s.taken.out = s.out := rfl
@[simp] theorem State.taken_pt : s.taken.pt = s.pt := rfl
@[simp] theorem State.taken_notes : s.taken.notes = s.notes := rfl
@[simp] theorem State.taken_turnedAway : s.taken.turnedAway = s.turnedAway := rfl

/-- CORR's two answers leave everything but `phase`, the status `match` and the notes. -/
theorem State.correlated_true : s.correlated true = { s with phase := .len, matchSig := true } := rfl

theorem State.correlated_false : s.correlated false = { s.note [.x1] with matchSig := false } := rfl

theorem State.checked_true : s.checked true = { s with completeSig := true } := rfl

theorem State.checked_false : s.checked false = { s.note [.x2] with completeSig := false } := rfl

end Sys2Proof.Machine
end

