-- ==== Sys2Proof/Laws/Ops.lean ====
section
/-! SUPPORT. What each shared operation can do, said once. -/

namespace Sys2Proof.Machine

/-! ### CORR and ADV -/

theorem corr_of_window {s : State} {b : Bool} (hp : s.phase = .search) (hm : s.matchAt s.scan = some b) :
    s.corr = s.correlated b := by
  simp [State.corr, hp, hm]

theorem corr_of_no_window {s : State} (hp : s.phase = .search) (hm : s.matchAt s.scan = none) :
    s.corr = s.note [.x2] := by
  simp [State.corr, hp, hm]

theorem corr_of_phase {s : State} (hp : s.phase ≠ .search) : s.corr = s := by simp [State.corr, hp]

theorem adv_of_mismatch {s : State} (hp : s.phase = .search) (hm : s.matchAt s.scan = some false) :
    s.adv = s.advance := by
  simp [State.adv, hp, hm]

theorem adv_of_not {s : State} (h : ¬ (s.phase = .search ∧ s.matchAt s.scan = some false)) : s.adv = s := by
  simp [State.adv, h]

/-- The step CORR, ADV on a match (R108). -/
theorem corrAdv_of_match {s : State} (hp : s.phase = .search) (hm : s.matchAt s.scan = some true) :
    s.corrAdv = { s with phase := .len, matchSig := true } := by
  simp [State.corrAdv, corr_of_window hp hm, State.correlated_true]

/-- The step CORR, ADV on a mismatch (R108). -/
theorem corrAdv_of_mismatch {s : State} (hp : s.phase = .search) (hm : s.matchAt s.scan = some false) :
    s.corrAdv = { s with scan := s.scan + 1, matchSig := false, notes := s.notes ++ [.x1] } := by
  have hc : s.corr = { s.note [.x1] with matchSig := false } := by
    rw [corr_of_window hp hm, State.correlated_false]
  have ha : s.corr.adv = s.corr.advance := by
    apply adv_of_mismatch
    · simp [hc, hp]
    · rw [hc]; exact hm
  simp [State.corrAdv, ha]
  simp [hc, State.advance, State.note]

/-! ### LEN -/

theorem len_of_held {s : State} {f : Bits} (hp : s.phase = .len) (hf : s.memRead (s.scan + s.cfg.K) 8 = some f) :
    s.len = s.lengthRead f := by
  simp [State.len, hp, hf]

theorem len_of_missing {s : State} (hp : s.phase = .len) (hf : s.memRead (s.scan + s.cfg.K) 8 = none) :
    s.len = s.note [.x2] := by
  simp [State.len, hp, hf]

theorem len_of_phase {s : State} (hp : s.phase ≠ .len) : s.len = s := by simp [State.len, hp]

/-! ### CHK and SLICE -/

theorem complete?_eq {s : State} {b : Bool} :
    s.complete? = some b ↔ s.phase = .body ∧ ∃ t, s.total = some t ∧ b = decide (t ≤ s.live) := by
  unfold State.complete?
  split
  · rename_i t hp ht
    simp [hp, ht, eq_comm]
  · rename_i h
    constructor
    · intro h'; cases h'
    · rintro ⟨hp, t, ht, -⟩
      exact (h t hp ht).elim

/-- SLICE is enabled exactly when CHK is complete and the three reads lie inside the buffer. -/
theorem pendingFrame_eq {s : State} {sy lf ps : Bits} {L : Byte} {t : Nat} :
    s.pendingFrame = some (sy, lf, L, ps, t) ↔
      s.phase = .body ∧ s.lreg = some L ∧ s.total = some t ∧ t ≤ s.live ∧
      s.memRead s.scan s.cfg.K = some sy ∧ s.memRead (s.scan + s.cfg.K) 8 = some lf ∧
      s.memRead (s.scan + s.cfg.K + 8) ((L.toNat + 2) * 8) = some ps := by
  unfold State.pendingFrame
  constructor
  · intro h
    split at h
    · rename_i L' t' hc hl ht
      split at h
      · rename_i a b c ha hb hc'
        obtain ⟨hp, t'', ht', hle⟩ := complete?_eq.1 hc
        cases h
        have : t'' = t := by simpa [ht] using ht'.symm
        subst this
        exact ⟨hp, hl, ht, by simpa using hle, ha, hb, hc'⟩
      · cases h
    · cases h
  · rintro ⟨hp, hl, ht, hle, h1, h2, h3⟩
    have hc : s.complete? = some true := complete?_eq.2 ⟨hp, t, ht, by simp [hle]⟩
    simp [hc, hl, ht, h1, h2, h3]

theorem slice_of_pending {s : State} {sy lf ps : Bits} {L : Byte} {t : Nat}
    (h : s.pendingFrame = some (sy, lf, L, ps, t)) :
    s.slice = (s.release (s.scan + t)).decodeFrame sy lf L ps t := by
  simp [State.slice, h]

theorem slice_of_none {s : State} (h : s.pendingFrame = none) : s.slice = s := by simp [State.slice, h]

/-- CHK writes the status `complete`, and X2 when the frame is incomplete; nothing else. -/
theorem chk_cases (s : State) :
    (s.complete? = none ∧ s.chk = s) ∨
    (s.complete? = some true ∧ s.chk = { s with completeSig := true }) ∨
    (s.complete? = some false ∧ s.chk = { s with completeSig := false, notes := s.notes ++ [.x2] }) := by
  unfold State.chk
  rcases h : s.complete? with _ | _ | _ <;> simp [State.checked, State.note]

theorem chk_pendingFrame (s : State) : s.chk.pendingFrame = s.pendingFrame := by
  rcases chk_cases s with ⟨-, h⟩ | ⟨-, h⟩ | ⟨-, h⟩ <;> rw [h] <;> rfl

/-! ### The sequencer's step -/

/-- What one step of the sequencer can do (R108). The last case is a body whose registers disagree, which R24 (d) rules
out. -/
theorem dispatch_cases {s t : State} (hK : s.cfg.Legal) (h : s.dispatch = some t) :
    (s.phase = .search ∧ s.matchAt s.scan = some true ∧ t = { s with phase := .len, matchSig := true }) ∨
    (s.phase = .search ∧ s.matchAt s.scan = some false ∧
      t = { s with scan := s.scan + 1, matchSig := false, notes := s.notes ++ [.x1] }) ∨
    (s.phase = .len ∧ ∃ f, s.memRead (s.scan + s.cfg.K) 8 = some f ∧ t = s.lengthRead f) ∨
    (∃ sy lf L ps n, s.pendingFrame = some (sy, lf, L, ps, n) ∧
      t = (({ s with completeSig := true } : State).release (s.scan + n)).decodeFrame sy lf L ps n) ∨
    (s.complete? = some true ∧ s.pendingFrame = none ∧ t = { s with completeSig := true }) := by
  unfold State.dispatch at h
  split at h
  · rename_i hp
    split at h
    · rename_i hle
      cases h
      have hlen : s.scan + s.cfg.K ≤ s.buf.length := by
        have : s.cfg.Legal := hK
        simp only [State.live, Config.Legal] at *
        omega
      obtain ⟨b, hb⟩ := matchAt_isSome hlen
      cases b with
      | true => exact .inl ⟨hp, hb, corrAdv_of_match hp hb⟩
      | false => exact .inr (.inl ⟨hp, hb, corrAdv_of_mismatch hp hb⟩)
    · cases h
  · rename_i hp
    split at h
    · rename_i hle
      cases h
      have hlen : s.scan + s.cfg.K + 8 ≤ s.buf.length := by
        simp only [State.live, Config.Legal] at *
        omega
      have hf := slice_of_le hlen
      exact .inr (.inr (.inl ⟨hp, _, hf, len_of_held hp hf⟩))
    · cases h
  · rename_i hp
    split at h
    · rename_i hc
      cases h
      have hchk : s.chk = { s with completeSig := true } := by
        rcases chk_cases s with ⟨h', -⟩ | ⟨-, h'⟩ | ⟨h', -⟩ <;> simp_all
      rcases hf : s.pendingFrame with _ | ⟨sy, lf, L, ps, n⟩
      · refine .inr (.inr (.inr (.inr ⟨hc, rfl, ?_⟩)))
        rw [slice_of_none (by rw [chk_pendingFrame, hf]), hchk]
      · refine .inr (.inr (.inr (.inl ⟨sy, lf, L, ps, n, rfl, ?_⟩)))
        rw [slice_of_pending (by rw [chk_pendingFrame, hf]), hchk]
    · cases h
    · cases h

/-- A `wait` changes only the status `complete` and the notes (R113). -/
theorem waited_eq (s : State) : ∃ c n, s.waited = { s with completeSig := c, notes := s.notes ++ n } ∧
    (n = [] ∨ n = [.x2]) := by
  unfold State.waited
  split
  · exact ⟨_, _, rfl, .inr rfl⟩
  · exact ⟨_, _, rfl, .inr rfl⟩
  · rcases chk_cases s with ⟨-, h⟩ | ⟨-, h⟩ | ⟨-, h⟩
    · exact ⟨s.completeSig, [], by rw [h]; simp, .inl rfl⟩
    · exact ⟨true, [], by rw [h]; simp, .inl rfl⟩
    · exact ⟨false, [.x2], h, .inr rfl⟩

/-- A property that the sequencer's step and the closing `wait` keep, RUN keeps. -/
theorem runFor_induction {P : State → Prop} (hstep : ∀ s t, P s → s.dispatch = some t → P t)
    (hwait : ∀ s, P s → s.dispatch = none → P s.waited) : ∀ fuel s, P s → P (runFor fuel s)
  | 0, _, h => h
  | fuel + 1, s, h => by
    unfold runFor
    split
    · rename_i t ht
      exact runFor_induction hstep hwait fuel t (hstep s t h ht)
    · rename_i ht
      exact hwait s h ht

/-! ### The buffer's one form -/

theorem memory_wf_of_length_le {cap : Option Nat} {b b' : Bits} (hl : b'.length ≤ b.length)
    (h : Memory.wf cap b = true) : Memory.wf cap b' = true := by
  unfold Memory.wf at *
  split at * <;> simp_all
  omega

/-- APPEND keeps the buffer within its capacity: a chunk that does not fit is refused. -/
theorem appendBits_wf {s : State} {bits : Bits} (h : s.fits bits = true) :
    Memory.wf (s.appendBits bits).cfg.cap (s.appendBits bits).buf = true := h

/-- CONSUME keeps it. -/
theorem consumeBits_wf {s : State} (n : Nat) (h : Memory.wf s.cfg.cap s.buf = true) :
    Memory.wf (s.consumeBits n).cfg.cap (s.consumeBits n).buf = true :=
  memory_wf_of_length_le (by simp) h

/-- SLICE keeps it. -/
theorem slice_wf {s : State} (h : Memory.wf s.cfg.cap s.buf = true) :
    Memory.wf s.slice.cfg.cap s.slice.buf = true := by
  rcases hf : s.pendingFrame with _ | ⟨sy, lf, L, ps, n⟩
  · rw [slice_of_none hf]; exact h
  · rw [slice_of_pending hf]
    exact memory_wf_of_length_le (by simp [State.decodeFrame]) h

/-- START leaves the empty buffer, which fits every capacity. -/
theorem started_wf (s : State) : Memory.wf s.started.cfg.cap s.started.buf = true := by
  unfold Memory.wf
  split <;> simp

theorem reset_wf : Memory.wf State.reset.cfg.cap State.reset.buf = true := rfl

/-! ### The configuration -/

theorem dispatch_cfg {s t : State} (hK : s.cfg.Legal) (h : s.dispatch = some t) : t.cfg = s.cfg := by
  rcases dispatch_cases hK h with ⟨-, -, rfl⟩ | ⟨-, -, rfl⟩ | ⟨-, _, -, rfl⟩ | ⟨_, _, _, _, _, -, rfl⟩ | ⟨-, -, rfl⟩ <;>
    rfl

end Sys2Proof.Machine
end

