-- ==== Sys2Proof/Laws/PerInstr.lean ====
section
/-! SUPPORT. For every row of spec/opcode_table.json: the word the encoder writes holds the row's fixed field. -/

namespace Sys2Proof.Laws

/-- A slot's word as the table numbers its bits: a selector's byte, or an `fcf` value's two bytes. -/
def slotWord (slot : Slot) : BitVec 16 :=
  match slot.word with
  | [b] => b.zeroExtend 16
  | [low, high] => fcfOfBytes low high
  | _ => 0#16

/-- The lowest bit, the width and the value of a row's one fixed field, copied from spec/opcode_table.json. -/
def rowFixed : Instr → Nat × Nat × Nat
  | .append _ => (0, 5, 0)
  | .consume _ => (0, 5, 1)
  | .corr => (0, 5, 2)
  | .adv => (0, 5, 3)
  | .len => (0, 5, 4)
  | .chk => (0, 5, 5)
  | .slice => (0, 5, 6)
  | .hb _ _ => (0, 5, 7)
  | .fcf _ => (0, 5, 8)
  | .ftype _ => (0, 5, 9)
  | .ackrq _ => (0, 5, 10)
  | .dam _ => (0, 5, 11)
  | .sam _ => (0, 5, 12)
  | .seq _ => (0, 5, 13)
  | .pan _ => (0, 5, 14)
  | .daddr _ _ => (0, 5, 15)
  | .saddr _ _ _ => (0, 5, 16)
  | .crcrx _ _ => (0, 5, 17)
  | .crc16 _ _ => (0, 5, 18)
  | .crcchk _ _ => (0, 5, 19)
  | .emit _ => (0, 5, 20)
  | .pass _ => (0, 5, 21)
  | .start => (0, 5, 22)
  | .stop => (0, 5, 23)
  | .ftypeBeacon _ => (0, 3, 0)
  | .ftypeData _ => (0, 3, 1)
  | .ftypeAck _ => (0, 3, 2)
  | .ftypeMacCommand _ => (0, 3, 3)
  | .ftypeUnknown _ _ => (2, 1, 1)
  | .ackrqFalse _ _ => (5, 1, 0)
  | .ackrqTrue _ _ => (5, 1, 1)
  | .damNone _ _ => (10, 2, 0)
  | .damUnknown _ _ => (10, 2, 1)
  | .damShort16 _ _ => (10, 2, 2)
  | .damLong64 _ _ => (10, 2, 3)
  | .samNone _ => (14, 2, 0)
  | .samUnknown _ => (14, 2, 1)
  | .samShort16 _ => (14, 2, 2)
  | .samLong64 _ => (14, 2, 3)

/-- The encoder's word holds the row's value at the row's place. -/
def EncodedWord.Statement (i : Instr) : Prop :=
  ((slotWord (encode i)).extractLsb' (rowFixed i).1 (rowFixed i).2.1).toNat = (rowFixed i).2.2

/-- The low part of a concatenation. -/
theorem extract_append_low {v w : Nat} (x : BitVec v) (y : BitVec w) : (x ++ y).extractLsb' 0 w = y := by
  apply BitVec.eq_of_getLsbD_eq
  intro i hi
  simp [BitVec.getLsbD_append, hi]

/-- A field above the low part of a concatenation. -/
theorem extract_append_high {v w : Nat} (x : BitVec v) (y : BitVec w) (k len : Nat) :
    (x ++ y).extractLsb' (w + k) len = x.extractLsb' k len := by
  apply BitVec.eq_of_getLsbD_eq
  intro i hi
  have h : ¬ (w + k + i < w) := by omega
  simp only [BitVec.getLsbD_extractLsb', BitVec.getLsbD_append, h, if_false, hi, decide_true, Bool.true_and]
  congr 1
  omega

/-- The two halves of a 16-bit value, put together again. -/
theorem append_halves (w : BitVec 16) : fcfOfBytes (w.extractLsb' 0 8) (w.extractLsb' 8 8) = w := by
  apply BitVec.eq_of_getLsbD_eq
  intro i hi
  refine (BitVec.getLsbD_append (x := w.extractLsb' 8 8) (y := w.extractLsb' 0 8)).trans ?_
  split
  · simp; omega
  · have h8 : i - 8 < 8 := by omega
    have : 8 + (i - 8) = i := by omega
    simp [h8, this]

/-- An `fcf` slot's word is the value. -/
theorem slotWord_fcfSlot (t : Table) (w : BitVec 16) : slotWord (fcfSlot t w) = w := append_halves w

/-- A selector slot's word is the selector. -/
theorem slotWord_opselSlot (sel : BitVec 5) (a : OperandPorts) :
    (slotWord (opselSlot sel a)).extractLsb' 0 5 = sel := by
  apply BitVec.eq_of_getLsbD_eq
  intro i hi
  have h16 : i < 16 := by omega
  simp [slotWord, opselSlot, hi, h16]

/-- A field that two parts of an `fcf` value leave in the middle. -/
theorem extract_middle {u v w : Nat} (x : BitVec u) (y : BitVec v) (z : BitVec w) :
    (x ++ y ++ z).extractLsb' w v = y :=
  (extract_append_high (x ++ y) z 0 v).trans (extract_append_low x y)

/-- The top part of an `fcf` value. -/
theorem extract_top {v w : Nat} (x : BitVec v) (y : BitVec w) : (x ++ y).extractLsb' w v = x :=
  (extract_append_high x y 0 v).trans BitVec.extractLsb'_eq_self

theorem EncodedWord.append (bits : Bits) : EncodedWord.Statement (.append bits) :=
  congrArg BitVec.toNat (slotWord_opselSlot _ _)
theorem EncodedWord.consume (n : Nat) : EncodedWord.Statement (.consume n) :=
  congrArg BitVec.toNat (slotWord_opselSlot _ _)
theorem EncodedWord.corr : EncodedWord.Statement .corr :=
  congrArg BitVec.toNat (slotWord_opselSlot _ _)
theorem EncodedWord.adv : EncodedWord.Statement .adv :=
  congrArg BitVec.toNat (slotWord_opselSlot _ _)
theorem EncodedWord.len : EncodedWord.Statement .len :=
  congrArg BitVec.toNat (slotWord_opselSlot _ _)
theorem EncodedWord.chk : EncodedWord.Statement .chk :=
  congrArg BitVec.toNat (slotWord_opselSlot _ _)
theorem EncodedWord.slice : EncodedWord.Statement .slice :=
  congrArg BitVec.toNat (slotWord_opselSlot _ _)
theorem EncodedWord.hb (psdu : Bits) (L : Byte) : EncodedWord.Statement (.hb psdu L) :=
  congrArg BitVec.toNat (slotWord_opselSlot _ _)
theorem EncodedWord.fcf (hb : Bits) : EncodedWord.Statement (.fcf hb) :=
  congrArg BitVec.toNat (slotWord_opselSlot _ _)
theorem EncodedWord.ftype (fcf : Option (BitVec 16)) : EncodedWord.Statement (.ftype fcf) :=
  congrArg BitVec.toNat (slotWord_opselSlot _ _)
theorem EncodedWord.ackrq (fcf : Option (BitVec 16)) : EncodedWord.Statement (.ackrq fcf) :=
  congrArg BitVec.toNat (slotWord_opselSlot _ _)
theorem EncodedWord.dam (fcf : Option (BitVec 16)) : EncodedWord.Statement (.dam fcf) :=
  congrArg BitVec.toNat (slotWord_opselSlot _ _)
theorem EncodedWord.sam (fcf : Option (BitVec 16)) : EncodedWord.Statement (.sam fcf) :=
  congrArg BitVec.toNat (slotWord_opselSlot _ _)
theorem EncodedWord.seq (hb : Bits) : EncodedWord.Statement (.seq hb) :=
  congrArg BitVec.toNat (slotWord_opselSlot _ _)
theorem EncodedWord.pan (hb : Bits) : EncodedWord.Statement (.pan hb) :=
  congrArg BitVec.toNat (slotWord_opselSlot _ _)
theorem EncodedWord.daddr (hb : Bits) (dm : Option AddrMode) : EncodedWord.Statement (.daddr hb dm) :=
  congrArg BitVec.toNat (slotWord_opselSlot _ _)
theorem EncodedWord.saddr (hb : Bits) (dm sm : Option AddrMode) : EncodedWord.Statement (.saddr hb dm sm) :=
  congrArg BitVec.toNat (slotWord_opselSlot _ _)
theorem EncodedWord.crcrx (psdu : Bits) (L : Byte) : EncodedWord.Statement (.crcrx psdu L) :=
  congrArg BitVec.toNat (slotWord_opselSlot _ _)
theorem EncodedWord.crc16 (lengthField hb : Bits) : EncodedWord.Statement (.crc16 lengthField hb) :=
  congrArg BitVec.toNat (slotWord_opselSlot _ _)
theorem EncodedWord.crcchk (crcCalc crcRx : BitVec 16) : EncodedWord.Statement (.crcchk crcCalc crcRx) :=
  congrArg BitVec.toNat (slotWord_opselSlot _ _)
theorem EncodedWord.emit (record : FrameOut) : EncodedWord.Statement (.emit record) :=
  congrArg BitVec.toNat (slotWord_opselSlot _ _)
theorem EncodedWord.pass (bits : Bits) : EncodedWord.Statement (.pass bits) :=
  congrArg BitVec.toNat (slotWord_opselSlot _ _)
theorem EncodedWord.start : EncodedWord.Statement .start :=
  congrArg BitVec.toNat (slotWord_opselSlot _ _)
theorem EncodedWord.stop : EncodedWord.Statement .stop :=
  congrArg BitVec.toNat (slotWord_opselSlot _ _)

theorem EncodedWord.ftypeBeacon (hi : BitVec 13) : EncodedWord.Statement (.ftypeBeacon hi) := by
  rw [EncodedWord.Statement, encode, slotWord_fcfSlot]
  exact congrArg BitVec.toNat (extract_append_low hi 0b000#3)
theorem EncodedWord.ftypeData (hi : BitVec 13) : EncodedWord.Statement (.ftypeData hi) := by
  rw [EncodedWord.Statement, encode, slotWord_fcfSlot]
  exact congrArg BitVec.toNat (extract_append_low hi 0b001#3)
theorem EncodedWord.ftypeAck (hi : BitVec 13) : EncodedWord.Statement (.ftypeAck hi) := by
  rw [EncodedWord.Statement, encode, slotWord_fcfSlot]
  exact congrArg BitVec.toNat (extract_append_low hi 0b010#3)
theorem EncodedWord.ftypeMacCommand (hi : BitVec 13) : EncodedWord.Statement (.ftypeMacCommand hi) := by
  rw [EncodedWord.Statement, encode, slotWord_fcfSlot]
  exact congrArg BitVec.toNat (extract_append_low hi 0b011#3)
theorem EncodedWord.ftypeUnknown (hi : BitVec 13) (lo : BitVec 2) : EncodedWord.Statement (.ftypeUnknown hi lo) := by
  rw [EncodedWord.Statement, encode, slotWord_fcfSlot]
  exact congrArg BitVec.toNat (extract_middle hi 0b1#1 lo)
theorem EncodedWord.ackrqFalse (hi : BitVec 10) (lo : BitVec 5) : EncodedWord.Statement (.ackrqFalse hi lo) := by
  rw [EncodedWord.Statement, encode, slotWord_fcfSlot]
  exact congrArg BitVec.toNat (extract_middle hi 0b0#1 lo)
theorem EncodedWord.ackrqTrue (hi : BitVec 10) (lo : BitVec 5) : EncodedWord.Statement (.ackrqTrue hi lo) := by
  rw [EncodedWord.Statement, encode, slotWord_fcfSlot]
  exact congrArg BitVec.toNat (extract_middle hi 0b1#1 lo)
theorem EncodedWord.damNone (hi : BitVec 4) (lo : BitVec 10) : EncodedWord.Statement (.damNone hi lo) := by
  rw [EncodedWord.Statement, encode, slotWord_fcfSlot]
  exact congrArg BitVec.toNat (extract_middle hi 0b00#2 lo)
theorem EncodedWord.damUnknown (hi : BitVec 4) (lo : BitVec 10) : EncodedWord.Statement (.damUnknown hi lo) := by
  rw [EncodedWord.Statement, encode, slotWord_fcfSlot]
  exact congrArg BitVec.toNat (extract_middle hi 0b01#2 lo)
theorem EncodedWord.damShort16 (hi : BitVec 4) (lo : BitVec 10) : EncodedWord.Statement (.damShort16 hi lo) := by
  rw [EncodedWord.Statement, encode, slotWord_fcfSlot]
  exact congrArg BitVec.toNat (extract_middle hi 0b10#2 lo)
theorem EncodedWord.damLong64 (hi : BitVec 4) (lo : BitVec 10) : EncodedWord.Statement (.damLong64 hi lo) := by
  rw [EncodedWord.Statement, encode, slotWord_fcfSlot]
  exact congrArg BitVec.toNat (extract_middle hi 0b11#2 lo)
theorem EncodedWord.samNone (lo : BitVec 14) : EncodedWord.Statement (.samNone lo) := by
  rw [EncodedWord.Statement, encode, slotWord_fcfSlot]
  exact congrArg BitVec.toNat (extract_top 0b00#2 lo)
theorem EncodedWord.samUnknown (lo : BitVec 14) : EncodedWord.Statement (.samUnknown lo) := by
  rw [EncodedWord.Statement, encode, slotWord_fcfSlot]
  exact congrArg BitVec.toNat (extract_top 0b01#2 lo)
theorem EncodedWord.samShort16 (lo : BitVec 14) : EncodedWord.Statement (.samShort16 lo) := by
  rw [EncodedWord.Statement, encode, slotWord_fcfSlot]
  exact congrArg BitVec.toNat (extract_top 0b10#2 lo)
theorem EncodedWord.samLong64 (lo : BitVec 14) : EncodedWord.Statement (.samLong64 lo) := by
  rw [EncodedWord.Statement, encode, slotWord_fcfSlot]
  exact congrArg BitVec.toNat (extract_top 0b11#2 lo)

end Sys2Proof.Laws
end

