-- ==== Sys2Proof/Tests/Slice0.lean ====
section
/-! SUPPORT. Tests. Expected results are those of 95_test_vectors.md (the vector's name stands beside each) or of the
worked example of the rule that is named; the words of the decode tests are written out from 30_encoding.md R56 and R47.
The theorems `test_witness_…` show states and operands that meet the hypotheses of the statement they are named after,
clause by clause, at the bounds of each. -/

namespace Sys2Proof.Tests

open Sys2Proof Sys2Proof.Machine

/-! ### Helpers -/

def p16 : Bits := Config.examplePattern

/-- A started block over `P16` with threshold `T`. -/
def block (T : Nat) (buf : Bits) (scan : Nat) (phase : Phase) (lreg : Option Byte) (total : Option Nat) : State :=
  { State.reset with
    cfg := Config.make p16 T, buf := buf, scan := scan, phase := phase, lreg := lreg, total := total }

def bitsOf (l : List Nat) : Bits := l.map (· == 1)

def bytes (l : List Nat) : Bits := bytesToBits (l.map (BitVec.ofNat 8))

/-- The state after an outcome, the reset state where there is none. -/
def after : Host.Outcome State Fault Refusal → State
  | .next s => s
  | .fault _ => State.reset
  | .refused _ => State.reset

def isNext : Host.Outcome State Fault Refusal → Bool
  | .next _ => true
  | .fault _ => false
  | .refused _ => false

def refusal : Host.Outcome State Fault Refusal → Option Refusal
  | .next _ => none
  | .fault _ => none
  | .refused r => some r

/-- `(len(buf), scan, phase, Lreg, total)`, the "State" of 95_test_vectors.md. -/
def tuple (s : State) : Nat × Nat × Phase × Option Byte × Option Nat := (s.buf.length, s.scan, s.phase, s.lreg, s.total)

/-- The frame of S1b. -/
def s1b : Bits := p16 ++ bytes [0x02, 0x12, 0x34, 0x93, 0x55]

/-- The frame of V-L0. -/
def vL0 : Bits := p16 ++ bytes [0x00, 0x33, 0x63]

/-- The frame of V-L1. -/
def vL1 : Bits := p16 ++ bytes [0x01, 0xAB, 0x4C, 0x8F]

/-- `hb` of VH1. -/
def vh1 : Bits := bytes [0x61, 0x88, 0x2A, 0xCD, 0xAB, 0x34, 0x12, 0x78, 0x56, 0xDE, 0xAD]

/-- A block in phase LEN with the sync of S1b and `n` bits more. -/
def lenBlock (n : Nat) : State := block 0 (s1b.take (16 + n)) 0 .len none none

/-- A block in phase BODY with `n` bits of the frame of S1b. -/
def bodyBlock (n : Nat) : State := block 0 (s1b.take n) 0 .body (some 2#8) (some 56)

def searchBlock (buf : Bits) (scan : Nat) : State := block 0 buf scan .search none none

/-! ### Ill-formed terms are refused -/

theorem test_illformed_hb : (Instr.hb [] 0#8).wellFormed = false := by decide
theorem test_illformed_crcrx : (Instr.crcrx (List.replicate 17 false) 0#8).wellFormed = false := by decide
theorem test_illformed_fcf : (Instr.fcf [true]).wellFormed = false := by decide
theorem test_illformed_seq : (Instr.seq [true]).wellFormed = false := by decide
theorem test_illformed_pan : (Instr.pan (List.replicate 2048 false)).wellFormed = false := by decide +kernel
theorem test_illformed_daddr : (Instr.daddr [true] none).wellFormed = false := by decide
theorem test_illformed_saddr : (Instr.saddr [true] none none).wellFormed = false := by decide
theorem test_illformed_crc16_length : (Instr.crc16 [true] []).wellFormed = false := by decide
theorem test_illformed_crc16_body : (Instr.crc16 (bytes [0x01]) []).wellFormed = false := by decide
theorem test_illformed_emit_length : (Instr.emit { zeroRecord with lengthField := [] }).wellFormed = false := by decide
theorem test_illformed_emit_psdu : (Instr.emit { zeroRecord with psdu := [] }).wellFormed = false := by decide
theorem test_illformed_emit_hb : (Instr.emit { zeroRecord with hb := [true] }).wellFormed = false := by decide
theorem test_illformed_emit_hdr : (Instr.emit { zeroRecord with hdrPresent := true }).wellFormed = false := by decide
theorem test_illformed_emit_crc : (Instr.emit { zeroRecord with crcValid := false }).wellFormed = false := by decide
theorem test_illformed_emit_total : (Instr.emit { zeroRecord with totalBits := 25 }).wellFormed = false := by decide
theorem test_illformed_emit_value :
    (Instr.emit { zeroRecord with lengthField := bytes [0x01] }).wellFormed = false := by decide

/-! ### Words of R56 and R47 decode to what they stand for -/

def sel (b : Byte) (a : OperandPorts) : Slot where
  table := .opsel
  word := [b]
  args := a

def isOk (i : Instr) (slot : Slot) : Bool :=
  match decode slot with
  | .ok j => decide (j = i)
  | .error _ => false

theorem test_decode_append :
    isOk (.append [true, false]) (sel 0b00000000#8 { OperandPorts.zero with bits := [true, false] }) = true := by decide
theorem test_decode_consume : isOk (.consume 9) (sel 0b00000001#8 { OperandPorts.zero with n := 9 }) = true := by decide
theorem test_decode_corr : isOk .corr (sel 0b00000010#8 .zero) = true := by decide
theorem test_decode_adv : isOk .adv (sel 0b00000011#8 .zero) = true := by decide
theorem test_decode_len : isOk .len (sel 0b00000100#8 .zero) = true := by decide
theorem test_decode_chk : isOk .chk (sel 0b00000101#8 .zero) = true := by decide
theorem test_decode_slice : isOk .slice (sel 0b00000110#8 .zero) = true := by decide
theorem test_decode_hb : isOk (.hb [true] 7#8) (sel 0b00000111#8 { OperandPorts.zero with psdu := [true], L := 7#8 }) = true := by
  decide
theorem test_decode_fcf : isOk (.fcf [true]) (sel 0b00001000#8 { OperandPorts.zero with hb := [true] }) = true := by decide
theorem test_decode_ftype :
    isOk (.ftype (some 5#16)) (sel 0b00001001#8 { OperandPorts.zero with fcf := some 5#16 }) = true := by decide
theorem test_decode_ackrq :
    isOk (.ackrq (some 5#16)) (sel 0b00001010#8 { OperandPorts.zero with fcf := some 5#16 }) = true := by decide
theorem test_decode_dam :
    isOk (.dam (some 5#16)) (sel 0b00001011#8 { OperandPorts.zero with fcf := some 5#16 }) = true := by decide
theorem test_decode_sam :
    isOk (.sam (some 5#16)) (sel 0b00001100#8 { OperandPorts.zero with fcf := some 5#16 }) = true := by decide
theorem test_decode_seq : isOk (.seq [true]) (sel 0b00001101#8 { OperandPorts.zero with hb := [true] }) = true := by decide
theorem test_decode_pan : isOk (.pan [true]) (sel 0b00001110#8 { OperandPorts.zero with hb := [true] }) = true := by decide
theorem test_decode_daddr : isOk (.daddr [true] (some .long64))
    (sel 0b00001111#8 { OperandPorts.zero with hb := [true], destAddrMode := some .long64 }) = true := by decide
theorem test_decode_saddr : isOk (.saddr [true] (some .long64) (some .short16))
    (sel 0b00010000#8
      { OperandPorts.zero with hb := [true], destAddrMode := some .long64, srcAddrMode := some .short16 }) = true := by
  decide
theorem test_decode_crcrx :
    isOk (.crcrx [true] 7#8) (sel 0b00010001#8 { OperandPorts.zero with psdu := [true], L := 7#8 }) = true := by decide
theorem test_decode_crc16 : isOk (.crc16 [true] [false])
    (sel 0b00010010#8 { OperandPorts.zero with lengthField := [true], hb := [false] }) = true := by decide
theorem test_decode_crcchk : isOk (.crcchk 1#16 2#16)
    (sel 0b00010011#8 { OperandPorts.zero with crcCalc := 1#16, crcRx := 2#16 }) = true := by decide
theorem test_decode_emit : isOk (.emit emptyDraft) (sel 0b00010100#8 { OperandPorts.zero with record := emptyDraft }) = true := by
  decide
theorem test_decode_pass :
    isOk (.pass [true]) (sel 0b00010101#8 { OperandPorts.zero with bits := [true] }) = true := by decide
theorem test_decode_start : isOk .start (sel 0b00010110#8 .zero) = true := by decide
theorem test_decode_stop : isOk .stop (sel 0b00010111#8 .zero) = true := by decide
theorem test_decode_unassigned : decodeTableWord 8 0b11000 = none := by decide
theorem test_decode_too_wide : decodeTableWord 8 0b00100000 = none := by decide

/-- An `fcf` slot: low byte first. -/
def word (t : Table) (low high : Byte) : Slot where
  table := t
  word := [low, high]
  args := .zero

-- `0x8861`, the `fcf` of VH1, in each table.
theorem test_decode_row_ftype :
    isOk (.ftypeData 0b1000100001100#13) (word .ftype 0x61#8 0x88#8) = true := by decide
theorem test_decode_row_ackrq :
    isOk (.ackrqTrue 0b1000100001#10 0b00001#5) (word .ackrq 0x61#8 0x88#8) = true := by decide
theorem test_decode_row_dam :
    isOk (.damShort16 0b1000#4 0b0001100001#10) (word .dam 0x61#8 0x88#8) = true := by decide
theorem test_decode_row_sam :
    isOk (.samShort16 0b00100001100001#14) (word .sam 0x61#8 0x88#8) = true := by decide
-- VH3: frame type 5.
theorem test_decode_row_unknown :
    isOk (.ftypeUnknown 0b1000010000100#13 0b01#2) (word .ftype 0x25#8 0x84#8) = true := by decide

/-! ### bit_accumulator (2.1) -/

-- VA3
theorem test_append_order :
    (after (exec (.append (bitsOf [0, 1, 1])) (searchBlock (bitsOf [1, 0]) 0))).buf = bitsOf [1, 0, 0, 1, 1] := by decide
-- U2
theorem test_append_full :
    refusal (exec (.append [true, true]) { searchBlock [true] 0 with cfg := { Config.make p16 0 with cap := some 2 } }) =
      some .bufferFull := by decide
-- VA4
theorem test_consume_two :
    (after (exec (.consume 2) (searchBlock (bitsOf [1, 0, 0, 1, 1]) 0))).buf = bitsOf [0, 1, 1] := by decide
-- VA7, and R66's rule for `scan`
theorem test_consume_saturates :
    tuple (after (exec (.consume 9) (searchBlock (bitsOf [1, 0, 0, 1, 1]) 3))) = (0, 0, .search, none, none) := by decide

/-! ### sync_correlator (2.2) -/

-- VC4, VC5: flips at indices 3 and 10
def twoFlips : Bits := bitsOf [1, 0, 0, 0, 0, 0, 0, 0, 0, 1, 1, 0, 1, 1, 1, 0]
theorem test_corr_beyond_tolerance :
    (after (exec .corr (block 1 twoFlips 0 .search none none))).phase = .search := by decide
theorem test_corr_within_tolerance :
    (after (exec .corr (block 2 twoFlips 0 .search none none))).phase = .len := by decide
-- R71's example: `scan = 4` and a mismatch
theorem test_adv_one_bit :
    (after (exec .adv (searchBlock (List.replicate 20 false) 4))).scan = 5 := by decide
-- SCAN over `0110 ++ P16 ++ 0000`
theorem test_scan_finds_offset_four :
    tuple (searchBlock (bitsOf [0, 1, 1, 0] ++ p16 ++ bitsOf [0, 0, 0, 0]) 0).scanAll = (24, 4, .len, none, none) := by
  decide +kernel

/-! ### frame_length_decoder and frame_slicer (2.3, 2.4) -/

-- VN7
theorem test_len_eleven :
    tuple (after (exec .len (block 0 (p16 ++ bytes [0x0B]) 0 .len none none))) = (24, 0, .body, some 11#8, some 128) := by
  decide
-- VN4: the first length bit has weight 128
theorem test_len_msb_first :
    (after (exec .len (block 0 (p16 ++ bytes [0x80]) 0 .len none none))).total = some 1064 := by decide
-- R81's example
theorem test_chk_incomplete : (after (exec .chk (bodyBlock 30))).notes = [.x2] := by decide
theorem test_chk_complete : (after (exec .chk (bodyBlock 56))).completeSig = true := by decide
-- R82's example: `0110 ++ F ++ 10` with `F` the frame of S1b
theorem test_slice_with_dead_bits :
    tuple (after (exec .slice (block 0 (bitsOf [0, 1, 1, 0] ++ s1b ++ bitsOf [1, 0]) 4 .body (some 2#8) (some 56)))) =
      (2, 0, .search, none, none) := by decide +kernel
theorem test_slice_record :
    (after (exec .slice (bodyBlock 56))).out.map (fun r => (r.psdu, r.crcRx, r.crcCalc, r.header.fcf)) =
      [(bytes [0x12, 0x34, 0x93, 0x55], 0x9355#16, 0x9355#16, some 0x3412#16)] := by decide +kernel

/-! ### mac_header_bitfield_decoder (2.5) -/

theorem test_hb_strips : (after (exec (.hb (bytes [0xAB, 0x4C, 0x8F]) 1#8) State.reset)).draft.hb = bytes [0xAB] := by
  decide
theorem test_fcf_swaps : (after (exec (.fcf vh1) State.reset)).draft.header.fcf = some 0x8861#16 := by decide +kernel
theorem test_ftype_data :
    (after (exec (.ftype (some 0x8861#16)) State.reset)).draft.header.frameType = some .data := by decide
theorem test_ftype_none : (after (exec (.ftype none) State.reset)).draft.header.frameType = none := by decide
theorem test_ackrq_true :
    (after (exec (.ackrq (some 0x8861#16)) State.reset)).draft.header.ackRequested = some true := by decide
-- VH6
theorem test_dam_long :
    (after (exec (.dam (some 0x8C01#16)) State.reset)).draft.header.destAddrMode = some .long64 := by decide
theorem test_sam_short :
    (after (exec (.sam (some 0x8C01#16)) State.reset)).draft.header.srcAddrMode = some .short16 := by decide
theorem test_seq : (after (exec (.seq vh1) State.reset)).draft.header.sequenceNumber = some 0x2A#8 := by decide +kernel
theorem test_pan : (after (exec (.pan vh1) State.reset)).draft.header.panId = some 0xABCD#16 := by decide +kernel
-- VH4, `L = 4`: a partial field is `none`
theorem test_pan_partial :
    (after (exec (.pan (vh1.take 32)) State.reset)).draft.header.panId = none := by decide +kernel
-- VH2
def vh2 : Bits := bytes [0x01, 0xCC, 0x07, 0x34, 0x12, 1, 2, 3, 4, 5, 6, 7, 8, 0x11, 0x22, 0x33, 0x44, 0x55, 0x66, 0x77, 0x88]
theorem test_daddr_long :
    (after (exec (.daddr vh2 (some .long64)) State.reset)).draft.header.destAddress =
      some (.long64 0x0807060504030201#64) := by decide +kernel
theorem test_saddr_long :
    (after (exec (.saddr vh2 (some .long64) (some .long64)) State.reset)).draft.header.srcAddress =
      some (.long64 0x8877665544332211#64) := by decide +kernel
-- VH3: an unknown destination mode takes no bits
theorem test_header_unknown_mode :
    headerOf (bytes [0x25, 0x84, 0x10, 0xFF, 0xEE, 0xAA, 0xBB]) =
      { fcf := some 0x8425#16, frameType := some .unknown, ackRequested := some true, destAddrMode := some .unknown,
        srcAddrMode := some .short16, sequenceNumber := some 0x10#8, panId := some 0xEEFF#16, destAddress := none,
        srcAddress := some (.short16 0xBBAA#16) } := by decide +kernel
-- the rows of the value tables, on `0x8861`
theorem test_row_data :
    (after (exec (.ftypeData 0b1000100001100#13) State.reset)).draft.header.frameType = some .data := by decide
theorem test_row_dam :
    (after (exec (.damShort16 0b1000#4 0b0001100001#10) State.reset)).draft.header.destAddrMode = some .short16 := by decide

/-! ### crc16_checker (2.6) -/

theorem test_crcrx : (after (exec (.crcrx (bytes [0x12, 0x34, 0x93, 0x55]) 2#8) State.reset)).draft.crcRx = 0x9355#16 := by
  decide
-- VK1, VK4, VK7, VK10, VK11
theorem test_crc_zero_length : (after (exec (.crc16 (bytes [0]) []) State.reset)).draft.crcCalc = 0x3363#16 := by
  decide +kernel
theorem test_crc_vh1 : (after (exec (.crc16 (bytes [11]) vh1) State.reset)).draft.crcCalc = 0x5B09#16 := by
  decide +kernel
theorem test_crc_check_value :
    crcOfBytes Config.atReset ([0x31, 0x32, 0x33, 0x34, 0x35, 0x36, 0x37, 0x38, 0x39].map (BitVec.ofNat 8)) = 0x1A33#16 := by
  decide +kernel
theorem test_crc_empty : crcOfBytes Config.atReset [] = 0xE2F0#16 := by decide
theorem test_crcchk_differs : (after (exec (.crcchk 0x8374#16 0x9355#16) State.reset)).notes = [.x3] := by decide

/-! ### sequencer (2.7, 3) -/

theorem test_emit : (after (exec (.emit zeroRecord) State.reset)).out = [zeroRecord] := by decide
-- VQ3
theorem test_pass : (after (exec (.pass (bitsOf [0, 1, 1, 0])) State.reset)).pt = [bitsOf [0, 1, 1, 0]] := by decide
theorem test_start : tuple (after (exec .start (bodyBlock 30))) = (0, 0, .search, none, none) := by decide
-- VQ4
theorem test_stop_keeps_pending : tuple (after (exec .stop (bodyBlock 55))) = (55, 0, .body, some 2#8, some 56) := by
  decide +kernel
-- V-INC
theorem test_ingest_incomplete :
    tuple (after (ingest (s1b.take 55) (searchBlock [] 0))) = (55, 0, .body, some 2#8, some 56) := by decide +kernel
-- V-B2B
theorem test_ingest_back_to_back :
    (after (ingest (vL0 ++ vL1 ++ bitsOf [1, 0, 0, 1, 0]) (searchBlock [] 0))).out.map
        (fun r => (r.L, r.totalBits, r.crcCalc, r.crcValid, r.header)) =
      [(0#8, 40, 0x3363#16, true, DecodedHeader.empty), (1#8, 48, 0x4C8F#16, true, DecodedHeader.empty)] := by
  decide +kernel
-- VQ2
theorem test_ingest_refused :
    (after (step { State.reset with run := false, inp := [.ingest [true]] })).turnedAway = [.ingest [true]] := by decide
-- P2, first call of a mismatching chunk: X1 once for each offset
theorem test_notes_per_offset :
    (after (ingest (List.replicate 18 false) (searchBlock [] 0))).notes = [.x1, .x1, .x1, .x2] := by decide +kernel
-- P4, with the text syntax of R57
theorem test_text_line :
    parseLine ['C', 'O', 'N', 'F', 'I', 'G', ' ', 'P', 'A', 'T', 'T', 'E', 'R', 'N', '=', '1', '0', '1', '1', ' ', 'T', '=', '0'] =
      some (.config ['1', '0', '1', '1', ' '] 0) := by decide
theorem test_text_byte_list :
    parseLine ['I', 'N', 'G', 'E', 'S', 'T', ' ', openBrace, '0', '2', ' ', 'A', 'b', closeBrace, '1'] =
      some (.ingest (bytes [0x02, 0xAB] ++ [true])) := by decide
theorem test_construct_empty : construct [' '] 0 = .error .emptyPattern := by rfl
theorem test_first_step_after_reset :
    tuple (after (step (State.reset.withFetchWord 8 0b00000))) = (0, 0, .search, none, none) := by decide

/-! ### Witnesses: the hypotheses of each statement can be met -/

/-- A good state in SEARCH with one whole window, which matches. -/
theorem inv_search : (searchBlock p16 0).Inv :=
  ⟨by decide, by decide, by decide, ⟨rfl, rfl⟩, by decide, by decide⟩

theorem inv_mismatch : (searchBlock (List.replicate 16 false) 0).Inv :=
  ⟨by decide, by decide, by decide, ⟨rfl, rfl⟩, by decide, by decide⟩

theorem inv_len (n : Nat) : (lenBlock n).Inv :=
  ⟨(show 1 ≤ (Config.make p16 0).K by decide), Nat.zero_le _, rfl, ⟨rfl, rfl⟩, by simp [lenBlock, block, State.reset], by simp [lenBlock, block, State.reset]⟩

theorem inv_body (n : Nat) : (bodyBlock n).Inv :=
  ⟨(show 1 ≤ (Config.make p16 0).K by decide), Nat.zero_le _, rfl, ⟨2#8, rfl, rfl⟩, by simp [bodyBlock, block, State.reset],
    by simp [bodyBlock, block, State.reset]⟩

theorem r24_short : (searchBlock (p16.take 15) 0).R24 :=
  ⟨⟨by decide, by decide, by decide, ⟨rfl, rfl⟩, by decide, by decide⟩, fun h => absurd rfl h, nofun,
    fun i h => absurd h (Nat.not_lt_zero i), by decide⟩

theorem r24_len (n : Nat) (h : n = 0 ∨ n = 7) : (lenBlock n).R24 := by
  refine ⟨inv_len n, fun _ => ?_, nofun, fun i h => absurd h (Nat.not_lt_zero i), by simp [lenBlock, block, State.reset]⟩
  rcases h with rfl | rfl <;> decide +kernel

theorem r24_body (n : Nat) (h : n = 24 ∨ n = 55 ∨ n = 56) : (bodyBlock n).R24 := by
  refine ⟨inv_body n, fun _ => ?_, fun _ => ⟨bytes [0x02], ?_, ?_⟩, fun i h => absurd h (Nat.not_lt_zero i),
    by simp [bodyBlock, block, State.reset]⟩ <;> rcases h with rfl | rfl | rfl <;> decide +kernel

def capped (c : Nat) (buf : Bits) : State := { searchBlock buf 0 with cfg := { Config.make p16 0 with cap := some c } }

theorem test_witness_AppendAddsAtTail :
    (searchBlock [] 0).cfg.cap = none ∧
    (capped 3 [true]).cfg.cap = some 3 ∧ (capped 3 [true]).buf.length + [true, false].length ≤ 3 := by decide
theorem test_witness_ChunkBeyondCapacityIsRefused :
    (capped 3 [true, true]).cfg.cap = some 3 ∧ 3 < (capped 3 [true, true]).buf.length + [true, false].length ∧
    (capped 3 [true, true]).run = true := by decide
theorem test_witness_ConsumeDropsFromHead :
    (searchBlock p16 3).scan ≤ (searchBlock p16 3).buf.length ∧ (searchBlock p16 3).buf.length ≤ 16 := by decide
theorem test_witness_AppendAndConsumeCompose :
    isNext (exec (.append [true]) (searchBlock [] 0)) = true ∧
    (after (exec (.append [true]) (searchBlock [] 0))).fits [false] = true ∧
    (searchBlock p16 16).scan ≤ (searchBlock p16 16).buf.length ∧
    isNext (exec (.consume 2) (searchBlock p16 16)) = true := by decide
theorem test_witness_CorrDecidesByHammingDistance :
    (searchBlock p16 0).phase = .search ∧ (searchBlock p16 0).scan + (searchBlock p16 0).cfg.K ≤ (searchBlock p16 0).buf.length ∧
    (searchBlock (p16.take 15) 0).buf.length < (searchBlock (p16.take 15) 0).scan + (searchBlock (p16.take 15) 0).cfg.K := by
  decide
theorem test_witness_ToleranceIsExact :
    p16.length = (Config.make p16 16).K ∧ (Config.make p16 16).K ≤ (Config.make p16 16).threshold ∧
    (Config.make p16 0).threshold = 0 ∧ p16.length = (Config.make p16 0).K := by decide
-- VC4: `d = T + 1`
theorem test_witness_AdvMovesOneBit :
    let s := block 1 twoFlips 0 .search none none
    s.cfg.Legal ∧ s.phase = .search ∧ s.scan + s.cfg.K ≤ s.buf.length ∧
    s.cfg.threshold < ((List.range s.cfg.K).filter fun j => s.buf[s.scan + j]? ≠ s.cfg.pattern[j]?).length := by
  decide
theorem test_witness_ScanFindsLeftmostMatch :
    (searchBlock p16 0).Inv ∧ (searchBlock p16 0).phase = .search ∧
    (∃ i, (searchBlock p16 0).scan ≤ i ∧ (searchBlock p16 0).matchAt i = some true) ∧
    (searchBlock [] 0).phase = .search ∧ ∀ i, (searchBlock [] 0).scan ≤ i → (searchBlock [] 0).matchAt i ≠ some true := by
  refine ⟨inv_search, rfl, ⟨0, by decide, by decide⟩, rfl, fun i _ h => ?_⟩
  have := (matchAt_eq_some.1 h).1
  simp [searchBlock, block, Config.K, Config.make, p16, Config.examplePattern] at this
theorem test_witness_LenReadsLengthField :
    (lenBlock 8).phase = .len ∧ (lenBlock 8).scan + (lenBlock 8).cfg.K + 8 ≤ (lenBlock 8).buf.length ∧
    (lenBlock 7).phase = .len ∧ (lenBlock 7).buf.length < (lenBlock 7).scan + (lenBlock 7).cfg.K + 8 := by decide +kernel
theorem test_witness_ChkReportsCompleteness :
    (bodyBlock 56).phase = .body ∧ (bodyBlock 56).total = some 56 ∧
    56 ≤ (bodyBlock 56).buf.length - (bodyBlock 56).scan ∧
    (bodyBlock 55).total = some 56 ∧ (bodyBlock 55).buf.length - (bodyBlock 55).scan < 56 := by decide +kernel
theorem test_witness_SliceEmitsFrame :
    (bodyBlock 56).phase = .body ∧ (bodyBlock 56).lreg = some 2#8 ∧
    (bodyBlock 56).total = some ((bodyBlock 56).cfg.K + 8 + ((2#8).toNat + 2) * 8) ∧
    (bodyBlock 56).scan + ((bodyBlock 56).cfg.K + 8 + ((2#8).toNat + 2) * 8) ≤ (bodyBlock 56).buf.length := by
  decide +kernel
theorem test_witness_OperationsNotEnabledWait :
    (lenBlock 0).phase ≠ .search ∧ (searchBlock p16 0).phase ≠ .len ∧ (searchBlock p16 0).phase ≠ .body ∧
    (searchBlock p16 0).matchAt 0 ≠ some false ∧ (bodyBlock 55).total = some 56 ∧ (bodyBlock 55).live < 56 := by
  decide +kernel
theorem test_witness_HbStripsChecksum :
    (bytes [0x33, 0x63]).length = ((0#8).toNat + 2) * 8 ∧
    (bytes [0x12, 0x34, 0x93, 0x55]).length = ((2#8).toNat + 2) * 8 := by decide
theorem test_witness_SaddrAfterNominalWidth :
    (2 : Nat) = (if (some AddrMode.short16) = some .short16 then 2 else if some AddrMode.short16 = some .long64 then 8 else 0) ∧
    (8 : Nat) = (if (some AddrMode.long64) = some .short16 then 2 else if some AddrMode.long64 = some .long64 then 8 else 0) := by
  decide
theorem test_witness_FieldsPresentWhenTheyFit :
    16 = (if (headerOf vh1).destAddrMode = some .short16 then 16
      else if (headerOf vh1).destAddrMode = some .long64 then 64 else 0) ∧
    16 = (if (headerOf vh1).srcAddrMode = some .short16 then 16
      else if (headerOf vh1).srcAddrMode = some .long64 then 64 else 0) ∧
    (vh1 ++ bytes [0x5B, 0x09]).length = ((11#8).toNat + 2) * 8 ∧ (bytes [0x33, 0x63]).length = ((0#8).toNat + 2) * 8 := by
  decide +kernel
theorem test_witness_HeaderByLength :
    (vh1 ++ bytes [0x5B, 0x09]).length = ((11#8).toNat + 2) * 8 ∧
    (hdr (vh1 ++ bytes [0x5B, 0x09]) 11#8).destAddrMode = some .short16 ∧
    (hdr (vh1 ++ bytes [0x5B, 0x09]) 11#8).srcAddrMode = some .short16 ∧
    (bytes [0xAB, 0x4C, 0x8F]).length = ((1#8).toNat + 2) * 8 ∧ (1#8).toNat < 2 := by decide +kernel
theorem test_witness_FrameTypeAndAckRows :
    Instr.ftypeUnknown 0#13 3#2 = .ftypeUnknown 0#13 3#2 ∧ FrameType.unknown = .unknown ∧
    Instr.ackrqTrue 0#10 31#5 = .ackrqTrue 0#10 31#5 := by decide
theorem test_witness_AddressModeRows :
    Instr.damLong64 15#4 0#10 = .damLong64 15#4 0#10 ∧ Instr.samNone 0#14 = .samNone 0#14 := by decide
theorem test_witness_CrcrxReadsLastSixteenBits :
    (bytes [0x33, 0x63]).length = ((0#8).toNat + 2) * 8 ∧
    (bytes [0x12, 0x34, 0x93, 0x55]).length = ((2#8).toNat + 2) * 8 := by decide
-- the last bit of each header field, there and missing (the frame of VH1, and VH2 for the long address)
theorem test_witness_FieldBoundaries :
    (fcfOf (vh1.take 16)).isSome = true ∧ fcfOf (vh1.take 15) = none ∧
    (sequenceNumberOf (vh1.take 24)).isSome = true ∧ sequenceNumberOf (vh1.take 23) = none ∧
    (panIdOf (vh1.take 40)).isSome = true ∧ panIdOf (vh1.take 39) = none ∧
    (destAddressOf (vh1.take 56) (some .short16)).isSome = true ∧ destAddressOf (vh1.take 55) (some .short16) = none ∧
    (destAddressOf (vh2.take 104) (some .long64)).isSome = true ∧ destAddressOf (vh2.take 103) (some .long64) = none ∧
    (srcAddressOf (vh1.take 72) (some .short16) (some .short16)).isSome = true ∧
    srcAddressOf (vh1.take 71) (some .short16) (some .short16) = none := by decide +kernel
theorem test_witness_CrcSixteenOverLengthAndBody :
    (bytes [11]).length = 8 ∧ vh1.length = 8 * be (bytes [11]) ∧ (bytes [0]).length = 8 ∧ ([] : Bits).length = 8 * be (bytes [0]) := by
  decide
theorem test_witness_CrcExamples : (Config.make p16 0).SourceCrc := by decide
theorem test_witness_CrcBitSerialFormAgrees : (bytes [11]).length = 8 ∧ vh1.length % 8 = 0 := by decide
-- the frame of V-L0, first and last bit
theorem test_witness_CrcDetectsSingleBitErrors :
    (Config.make p16 0).SourceCrc ∧ (bytes [0]).length = 8 ∧ ([] : Bits).length % 8 = 0 ∧
    (bytes [0x33, 0x63]).length = 16 ∧
    crcValidOf (crcCalcOf (Config.make p16 0) (bytes [0]) []) (BitVec.ofNat 16 (be (bytes [0x33, 0x63]))) = true ∧
    0 < (bytes [0] ++ [] ++ bytes [0x33, 0x63]).length ∧ 23 < (bytes [0] ++ [] ++ bytes [0x33, 0x63]).length := by
  decide +kernel
theorem test_witness_StopEndsTheRun : State.reset.inp = [] := by decide
theorem test_witness_DispatchFollowsTable_search :
    (searchBlock p16 0).Inv ∧ (searchBlock p16 0).phase = .search ∧
    (searchBlock p16 0).cfg.K ≤ (searchBlock p16 0).buf.length - (searchBlock p16 0).scan ∧
    (searchBlock (p16.take 15) 0).Inv ∧
    (searchBlock (p16.take 15) 0).buf.length - (searchBlock (p16.take 15) 0).scan < (searchBlock (p16.take 15) 0).cfg.K :=
  ⟨inv_search, rfl, by decide, r24_short.toInv, by decide⟩
theorem test_witness_DispatchFollowsTable_len :
    (lenBlock 8).Inv ∧ (lenBlock 8).phase = .len ∧ (lenBlock 8).cfg.K + 8 ≤ (lenBlock 8).buf.length - (lenBlock 8).scan ∧
    (lenBlock 7).Inv ∧ (lenBlock 7).buf.length - (lenBlock 7).scan < (lenBlock 7).cfg.K + 8 :=
  ⟨inv_len 8, rfl, by decide +kernel, inv_len 7, by decide +kernel⟩
theorem test_witness_DispatchFollowsTable_body :
    (bodyBlock 56).Inv ∧ (bodyBlock 56).phase = .body ∧ (bodyBlock 56).total = some 56 ∧
    56 ≤ (bodyBlock 56).buf.length - (bodyBlock 56).scan ∧
    (bodyBlock 55).Inv ∧ (bodyBlock 55).buf.length - (bodyBlock 55).scan < 56 :=
  ⟨inv_body 56, rfl, rfl, by decide +kernel, inv_body 55, by decide +kernel⟩
theorem test_witness_PendingSyncEndsOnlyInSlice :
    (searchBlock p16 0).Inv ∧ (searchBlock p16 0).dispatch.isSome = true ∧ (searchBlock p16 0).matchAt 0 = some true ∧
    (searchBlock (List.replicate 16 false) 0).Inv ∧ (searchBlock (List.replicate 16 false) 0).dispatch.isSome = true ∧
    (searchBlock (List.replicate 16 false) 0).matchAt 0 = some false ∧
    (lenBlock 8).Inv ∧ (lenBlock 8).dispatch.isSome = true ∧ (bodyBlock 56).Inv ∧ (bodyBlock 56).dispatch.isSome = true :=
  ⟨inv_search, by decide +kernel, by decide, inv_mismatch, by decide +kernel, by decide, inv_len 8, by decide +kernel,
    inv_body 56, by decide +kernel⟩
theorem test_witness_RunEndsQuiescent : (searchBlock p16 0).Inv ∧ (searchBlock p16 0).dispatch.isSome = true :=
  ⟨inv_search, by decide +kernel⟩

def calling (run : Bool) : State := { searchBlock [] 0 with inp := [.ingest [true]], run := run }
theorem inv_calling (run : Bool) : (calling run).Inv :=
  ⟨(show 1 ≤ (Config.make p16 0).K by decide), Nat.zero_le _, rfl, ⟨rfl, rfl⟩, by simp [calling, searchBlock, block, State.reset],
    by simp [calling, searchBlock, block, State.reset]⟩
theorem test_witness_IngestIsOneAtomicStep :
    (calling true).Inv ∧ (calling true).inp = .ingest [true] :: [] ∧ (calling true).run = true ∧
    (calling true).fits [true] = true ∧ (calling false).Inv ∧ (calling false).inp = .ingest [true] :: [] ∧
    (calling false).run = false :=
  ⟨inv_calling true, rfl, rfl, rfl, inv_calling false, rfl, rfl⟩
theorem test_witness_StepWithoutInput :
    (searchBlock p16 0).inp = [] ∧ (searchBlock p16 0).run = true ∧ (searchBlock p16 0).dispatch.isSome = true ∧
    State.reset.inp = [] ∧ State.reset.Quiescent ∧ (built Config.atReset).inp = [] ∧ (built Config.atReset).run = false := by
  decide +kernel

def issuing (run : Bool) (i : Instr) : State := { State.reset with inp := [.issue (encode i)], run := run }
theorem test_witness_StepRunsDecodedInstruction :
    (issuing true .corr).inp = .issue (encode .corr) :: [] ∧ isOk .corr (encode .corr) = true ∧
    Instr.corr.wellFormed = true ∧ (issuing true .corr).run = true ∧
    (issuing false .start).inp = .issue (encode .start) :: [] ∧ isOk .start (encode .start) = true := by decide
theorem test_witness_SlotsThatDoNotRun :
    (issuing false .corr).run = false ∧ isOk .corr (encode .corr) = true ∧ Instr.corr ≠ .start ∧ Instr.corr ≠ .stop ∧
    isOk (.fcf [true]) (encode (.fcf [true])) = true ∧ (Instr.fcf [true]).wellFormed = false ∧
    decodeTableWord 8 0b11111 = none := by decide
theorem test_witness_DecodeEncodeAgree : isOk .stop (encode .stop) = true := by decide
theorem test_witness_EveryStepKeepsInvariant : (calling true).Inv ∧ isNext (step (calling true)) = true :=
  ⟨inv_calling true, by decide +kernel⟩
theorem test_witness_EveryStepKeepsPendingFrame :
    (bodyBlock 56).R24 ∧ (bodyBlock 56).cutsPendingFrame = false ∧ isNext (step (bodyBlock 56)) = true :=
  ⟨r24_body 56 (.inr (.inr rfl)), by decide, by decide +kernel⟩
-- at the bounds: 15 live bits in SEARCH, 16 and 23 in LEN, 24 and 55 in BODY
theorem test_witness_QuiescentBounds :
    (searchBlock (p16.take 15) 0).R24 ∧ (searchBlock (p16.take 15) 0).Quiescent ∧
    (lenBlock 0).R24 ∧ (lenBlock 0).Quiescent ∧ (lenBlock 7).R24 ∧ (lenBlock 7).Quiescent ∧
    (bodyBlock 24).R24 ∧ (bodyBlock 24).Quiescent ∧ (bodyBlock 55).R24 ∧ (bodyBlock 55).Quiescent :=
  ⟨r24_short, by decide +kernel, r24_len 0 (.inl rfl), by decide +kernel, r24_len 7 (.inr rfl), by decide +kernel,
    r24_body 24 (.inl rfl), by decide +kernel, r24_body 55 (.inr (.inl rfl)), by decide +kernel⟩
theorem test_witness_BufferIsSuffixOfStream :
    (searchBlock p16 0).Inv ∧ (searchBlock p16 0).dispatch.isSome = true ∧ (searchBlock [] 0).run = true ∧
    isNext (ingest [true] (searchBlock [] 0)) = true ∧ (searchBlock [] 0).buf <:+ (searchBlock [] 0).pt.flatten :=
  ⟨inv_search, by decide +kernel, rfl, by decide +kernel, List.suffix_rfl⟩
theorem test_witness_ConfigurationIsImmutable : (calling true).Inv ∧ isNext (step (calling true)) = true :=
  test_witness_EveryStepKeepsInvariant
theorem test_witness_OutputsAreNeverWithdrawn : (calling false).Inv ∧ isNext (step (calling false)) = true :=
  ⟨inv_calling false, by decide +kernel⟩
-- a step of the sequencer, an ingest call, and a slot that no step runs
theorem test_witness_ConditionsChangeNoControl :
    (lenBlock 8).Inv ∧ isNext (step (lenBlock 8)) = true ∧ (calling true).Inv ∧ isNext (step (calling true)) = true ∧
    ({ lenBlock 8 with inp := [.issue (sel 0b00011000#8 .zero)] } : State).Inv ∧
    (refusal (step { lenBlock 8 with inp := [.issue (sel 0b00011000#8 .zero)] })).isSome = true :=
  ⟨inv_len 8, by decide +kernel, inv_calling true, by decide +kernel, { inv_len 8 with }, by decide +kernel⟩
theorem test_witness_EmptyChunkChangesNothing :
    (bodyBlock 55).Inv ∧ (bodyBlock 55).Quiescent ∧ (bodyBlock 55).run = true :=
  ⟨inv_body 55, by decide +kernel, rfl⟩
theorem test_witness_ChunkBoundariesDoNotMatter :
    (lenBlock 7).Inv ∧ (lenBlock 7).Quiescent ∧ (lenBlock 7).run = true ∧ (lenBlock 7).cfg.cap = none ∧
    [[true], [], [false]].flatten = [[true, false]].flatten :=
  ⟨inv_len 7, by decide +kernel, rfl, rfl, by decide⟩
theorem test_witness_DeadBitsDoNotMatter :
    (searchBlock p16 0).Inv ∧ (searchBlock p16 0).run = true ∧ (searchBlock p16 0).cfg.cap = none :=
  ⟨inv_search, rfl, rfl⟩
theorem test_witness_ForgettingThePendingSyncGivesTheSame : (bodyBlock 55).R24 := r24_body 55 (.inr (.inl rfl))
-- a text that does not read the same from both ends; and one for each refusal
theorem test_witness_ConstructionChecksConfiguration :
    (∀ x ∈ ['1', '1', ' ', '0'], x = '0' ∨ x = '1' ∨ x = ' ') ∧ (∃ x ∈ ['1', '1', ' ', '0'], x ≠ ' ') ∧ (0 : Int) ≤ 0 ∧
    parsePattern ['1', '1', ' ', '0'] = some [true, true, false] ∧
    (∃ x ∈ ['1', '2'], x ≠ '0' ∧ x ≠ '1' ∧ x ≠ ' ') ∧ (∀ x ∈ [' ', ' '], x = ' ') ∧ (-1 : Int) < 0 := by
  simp [parsePattern]
-- what log entry 22 says of the text
theorem test_text_pattern_is_no_byte_list : parsePattern [openBrace, '9', '0', closeBrace] = none := by decide
theorem test_text_empty_chunk :
    parseLine ['I', 'N', 'G', 'E', 'S', 'T', ' ', '"', '"'] = some (.ingest []) ∧
    parseChunk [] = some [] ∧ parseChunk [' ', ' '] = some [] ∧ parseChunk [openBrace, closeBrace] = some [] ∧
    parseChunk ['"', '"', ' '] = none := by decide
theorem test_text_no_space_before_threshold :
    parseLine ['C', 'O', 'N', 'F', 'I', 'G', ' ', 'P', 'A', 'T', 'T', 'E', 'R', 'N', '=', '1', '1', 'T', '=', '0', '7'] =
      some (.config ['1', '1'] 7) := by decide
theorem test_text_no_comment : parseLine ['S', 'T', 'O', 'P', ' ', ';', ' ', 'x'] = none := by decide

end Sys2Proof.Tests
end

section
/-! SUPPORT. Proofs of the statements on 00_scope.md: the order of bits and bytes (R8), operations issued where they are
not enabled, and the step that finds no input (R9). -/

namespace Sys2Proof.Machine

/-! ### Bit and byte order -/

/-- R8: bit `j` of a sequence has the weight `2^(len-1-j)`. -/
theorem be_eq_sum (s : Bits) :
    be s = ((List.range s.length).map fun j => (s.getD j false).toNat * 2 ^ (s.length - 1 - j)).sum := by
  induction s with
  | nil => rfl
  | cons b s ih =>
    have hweight (j : Nat) : s.length - 1 - j = s.length - (j + 1) := by omega
    rw [be_cons, ih, List.length_cons, List.range_succ_eq_map]
    simp [Function.comp_def, hweight]

/-- R8, R52: byte `i`, counted in arrival order, has the weight `256^i`. -/
theorem rev_eq_sum (s : Bits) (n : Nat) : rev s n = ((List.range n).map fun i => byteAt s i * 256 ^ i).sum := by
  induction n with
  | zero => rfl
  | succ n ih => simp [rev, ih, List.range_succ]

/-- Settles O1: the two sums by induction along `be` and `rev`, the bound by `be_lt`. -/
theorem bitAndByteOrder : Obligations.BitAndByteOrder :=
  ⟨be_eq_sum, rev_eq_sum, be_lt⟩

/-! ### Operations issued where they are not enabled -/

theorem exec_corr (s : State) : exec .corr s = .next s.corr := rfl

theorem exec_adv (s : State) : exec .adv s = .next s.adv := rfl

theorem exec_len (s : State) : exec .len s = .next s.len := rfl

theorem exec_chk (s : State) : exec .chk s = .next s.chk := rfl

theorem exec_slice (s : State) : exec .slice s = .next s.slice := rfl

theorem chk_of_phase {s : State} (hp : s.phase ≠ .body) : s.chk = s := by
  have hbody {b : Bool} (hc : s.complete? = some b) : s.phase = .body := (complete?_eq.1 hc).1
  rcases chk_cases s with ⟨-, hs⟩ | ⟨hc, -⟩ | ⟨hc, -⟩
  · exact hs
  · exact absurd (hbody hc) hp
  · exact absurd (hbody hc) hp

/-- SLICE waits unless the phase is BODY with all `total` bits live (R82). -/
theorem slice_of_not_held {s : State} (h : ∀ t, s.phase = .body → s.total = some t → s.live < t) : s.slice = s := by
  apply slice_of_none
  rcases hf : s.pendingFrame with _ | ⟨sy, lf, L, ps, t⟩
  · rfl
  · obtain ⟨hp, -, ht, hle, -⟩ := pendingFrame_eq.1 hf
    exact absurd hle (Nat.not_le.2 (h t hp ht))

/-- Settles O14: each operation's own enabling condition fails, so the state is the one it was. -/
theorem operationsNotEnabledWait : Obligations.OperationsNotEnabledWait := by
  intro s
  refine ⟨fun hp => ⟨?corr, ?advPhase⟩, fun hp => ?len, fun hp => ⟨?chk, ?slicePhase⟩, fun hm => ?advMatch,
    fun t ht hlt => ?sliceShort⟩
  case corr => rw [exec_corr, corr_of_phase hp]
  case advPhase => rw [exec_adv, adv_of_not fun h => hp h.1]
  case len => rw [exec_len, len_of_phase hp]
  case chk => rw [exec_chk, chk_of_phase hp]
  case slicePhase => rw [exec_slice, slice_of_not_held fun _ hbody _ => absurd hbody hp]
  case advMatch => rw [exec_adv, adv_of_not fun h => hm h.2]
  case sliceShort =>
    have htotal (t' : Nat) (ht' : s.total = some t') : t' = t := Option.some.inj (ht'.symm.trans ht)
    rw [exec_slice, slice_of_not_held fun t' _ ht' => htotal t' ht' ▸ hlt]

/-! ### The step that finds no input -/

theorem idle_of_dispatch {s t : State} (hr : s.run = true) (hd : s.dispatch = some t) : s.idle = t := by
  simp [State.idle, hr, hd]

theorem idle_of_quiescent {s : State} (hr : s.run = true) (hq : s.Quiescent) : s.idle = s := by
  simp [State.idle, hr, show s.dispatch = none from hq]

theorem idle_of_stopped {s : State} (hr : s.run = false) : s.idle = s := by
  simp [State.idle, hr]

theorem fetch_of_no_input {s : State} (hi : s.inp = []) : s.fetch = .nothing := by
  simp [State.fetch, hi]

theorem step_of_no_input {s : State} (hi : s.inp = []) : step s = .next s.idle := by
  simp [step, fetch_of_no_input hi]

/-- Settles O43: without an input the step is `idle`, which has one equation per case. -/
theorem stepWithoutInput : Obligations.StepWithoutInput := by
  intro s hi
  rw [step_of_no_input hi]
  refine ⟨fun t hr hd => ?enabled, fun hr hq => ?quiescent, fun hr => ?stopped⟩
  case enabled => rw [idle_of_dispatch hr hd]
  case quiescent => rw [idle_of_quiescent hr hq]
  case stopped => rw [idle_of_stopped hr]

end Sys2Proof.Machine
end

section
/-! SUPPORT. Proofs of the statements on 10_state.md: the invariants of R24 and what every step keeps (R10 to R26), and
construction (R19). -/

namespace Sys2Proof.Machine

/-! ### What a step can do -/

/-- One change of the block's state; every step of the machine is a sequence of these, but for a CONSUME issued alone
(`step_cases`). A `quiet` change leaves all that R24 speaks of, takes back no passed chunk and notes no X4; each of the
others is one change of the buffer, of the sequencing state or of the records, with its enabling condition. -/
inductive Move (s : State) : State → Prop
  | quiet (run matchSig completeSig : Bool) (draft : FrameOut) (inp turnedAway : List Input) (pt : List Bits)
      (notes : List Condition) (hpt : s.pt <+: pt) (hnotes : .x4 ∈ notes → .x4 ∈ s.notes) :
      Move s { s with
        run := run, matchSig := matchSig, completeSig := completeSig, draft := draft, inp := inp,
        turnedAway := turnedAway, pt := pt, notes := notes }
  | append (bits : Bits) (hfits : s.fits bits = true) : Move s (s.appendBits bits)
  | matched (hp : s.phase = .search) (hm : s.matchAt s.scan = some true) : Move s { s with phase := .len }
  | advanced (hp : s.phase = .search) (hm : s.matchAt s.scan = some false) : Move s s.advance
  | lengthRead (f : Bits) (hp : s.phase = .len) (hf : s.memRead (s.scan + s.cfg.K) 8 = some f) : Move s (s.lengthRead f)
  | sliced (sy lf : Bits) (L : Byte) (ps : Bits) (n : Nat) (hf : s.pendingFrame = some (sy, lf, L, ps, n)) :
      Move s ((s.release (s.scan + n)).emitRecord (frameOut s.cfg sy lf L ps n))
  | emitted (r : FrameOut) (hr : recordCoherent r) : Move s (s.emitRecord r)
  | started : Move s s.started

/-- A sequence of changes. -/
abbrev Moves : State → State → Prop := Relation.ReflTransGen Move

/-- A property that every change keeps, a sequence of changes keeps. -/
theorem Moves.keeps {P : State → Prop} (hkeeps : ∀ u v, Move u v → P u → P v) {s t : State} (h : Moves s t) (hs : P s) :
    P t := by
  induction h with
  | refl => exact hs
  | tail _ hmove ih => exact hkeeps _ _ hmove ih

theorem move_note (s : State) {c : List Condition} (hc : .x4 ∉ c) : Move s (s.note c) :=
  .quiet _ _ _ _ _ _ _ _ List.prefix_rfl (by simp [hc])

theorem move_setDraft (s : State) (f : FrameOut) : Move s (s.setDraft f) :=
  .quiet _ _ _ _ _ _ _ _ List.prefix_rfl id

theorem move_passBits (s : State) (bits : Bits) : Move s (s.passBits bits) :=
  .quiet _ _ _ _ _ _ _ _ (List.prefix_append _ _) id

theorem move_stopped (s : State) : Move s s.stopped := .quiet _ _ _ _ _ _ _ _ List.prefix_rfl id

theorem move_turnAway (s : State) (i : Input) : Move s (s.turnAway i) := .quiet _ _ _ _ _ _ _ _ List.prefix_rfl id

theorem move_taken (s : State) : Move s s.taken := .quiet _ _ _ _ _ _ _ _ List.prefix_rfl id

theorem move_matchSig (s : State) (b : Bool) : Move s { s with matchSig := b } :=
  .quiet _ _ _ _ _ _ _ _ List.prefix_rfl id

theorem move_completeSig (s : State) (b : Bool) : Move s { s with completeSig := b } :=
  .quiet _ _ _ _ _ _ _ _ List.prefix_rfl id

theorem moves_setDraft_note (s : State) (f : FrameOut) {c : List Condition} (hc : .x4 ∉ c) :
    Moves s ((s.setDraft f).note c) :=
  .tail (.single (move_setDraft s f)) (move_note _ hc)

/-! No operation notes X4 (60_exceptions.md R123). -/

theorem x4_not_mem_missing (hb : Bits) (last : Nat) : .x4 ∉ missing hb last := by
  unfold missing
  split <;> simp

theorem x4_not_mem_missingAddress (hb : Bits) (a : Nat) (mode : Option AddrMode) : .x4 ∉ missingAddress hb a mode := by
  unfold missingAddress
  split
  · simp
  · exact x4_not_mem_missing _ _

theorem x4_not_mem_checksumNote (crcCalc crcRx : BitVec 16) : .x4 ∉ checksumNote crcCalc crcRx := by
  unfold checksumNote
  split <;> simp

theorem x4_not_mem_decodeNotes (r : FrameOut) : .x4 ∉ decodeNotes r := by
  simp [decodeNotes, headerNotes, x4_not_mem_missing, x4_not_mem_missingAddress, x4_not_mem_checksumNote]

/-! The operations that change the sequencing state. -/

theorem moves_matched {s : State} (hp : s.phase = .search) (hm : s.matchAt s.scan = some true) :
    Moves s { s with phase := .len, matchSig := true } :=
  .tail (.single (.matched hp hm)) (move_matchSig _ true)

theorem corr_moves (s : State) : Moves s s.corr := by
  by_cases hp : s.phase = .search
  · rcases hm : s.matchAt s.scan with _ | _ | _
    · rw [corr_of_no_window hp hm]
      exact .single (move_note s (by simp))
    · rw [corr_of_window hp hm, State.correlated_false]
      exact .tail (.single (move_note s (by simp))) (move_matchSig _ false)
    · rw [corr_of_window hp hm, State.correlated_true]
      exact moves_matched hp hm
  · rw [corr_of_phase hp]

theorem adv_moves (s : State) : Moves s s.adv := by
  by_cases h : s.phase = .search ∧ s.matchAt s.scan = some false
  · obtain ⟨hp, hm⟩ := h
    rw [adv_of_mismatch hp hm]
    exact .single (.advanced hp hm)
  · rw [adv_of_not h]

theorem len_moves (s : State) : Moves s s.len := by
  by_cases hp : s.phase = .len
  · rcases hf : s.memRead (s.scan + s.cfg.K) 8 with _ | f
    · rw [len_of_missing hp hf]
      exact .single (move_note s (by simp))
    · rw [len_of_held hp hf]
      exact .single (.lengthRead f hp hf)
  · rw [len_of_phase hp]

theorem chk_moves (s : State) : Moves s s.chk := by
  rcases chk_cases s with ⟨-, h⟩ | ⟨-, h⟩ | ⟨-, h⟩
  · rw [h]
  · rw [h]
    exact .single (move_completeSig s true)
  · rw [h]
    exact .tail (.single (move_note s (by simp : Condition.x4 ∉ [.x2]))) (move_completeSig _ false)

theorem moves_decodeFrame {s : State} {sy lf ps : Bits} {L : Byte} {n : Nat}
    (hf : s.pendingFrame = some (sy, lf, L, ps, n)) :
    Moves s ((s.release (s.scan + n)).decodeFrame sy lf L ps n) :=
  .tail (.single (.sliced sy lf L ps n hf)) (move_note _ (x4_not_mem_decodeNotes (frameOut s.cfg sy lf L ps n)))

theorem slice_moves (s : State) : Moves s s.slice := by
  rcases hf : s.pendingFrame with _ | ⟨sy, lf, L, ps, n⟩
  · rw [slice_of_none hf]
  · rw [slice_of_pending hf]
    exact moves_decodeFrame hf

/-- What an operation with well-formed operands can do. -/
theorem exec_cases {i : Instr} {s t : State} (hwf : i.wellFormed = true) (h : exec i s = .next t) :
    Moves s t ∨ ∃ n, i = .consume n ∧ t = s.consumeBits n := by
  cases i with
  | consume n => exact .inr ⟨n, rfl, (Host.Outcome.next.inj h).symm⟩
  | append bits =>
    by_cases hfits : s.fits bits = true
    · have ht : s.appendBits bits = t := by simpa [exec, execAppend, hfits] using h
      exact .inl (ht ▸ .single (.append bits hfits))
    · simp [exec, execAppend, hfits] at h
  | corr => exact .inl (Host.Outcome.next.inj h ▸ corr_moves s)
  | adv => exact .inl (Host.Outcome.next.inj h ▸ adv_moves s)
  | len => exact .inl (Host.Outcome.next.inj h ▸ len_moves s)
  | chk => exact .inl (Host.Outcome.next.inj h ▸ chk_moves s)
  | slice => exact .inl (Host.Outcome.next.inj h ▸ slice_moves s)
  | hb _ _ | seq _ | pan _ =>
    cases h
    exact .inl (moves_setDraft_note s _ (x4_not_mem_missing _ _))
  | daddr _ _ | saddr _ _ _ =>
    cases h
    exact .inl (moves_setDraft_note s _ (x4_not_mem_missingAddress _ _ _))
  | crcchk _ _ =>
    cases h
    exact .inl (moves_setDraft_note s _ (x4_not_mem_checksumNote _ _))
  | fcf _ | ftype _ | ackrq _ | dam _ | sam _ | crcrx _ _ | crc16 _ _ | ftypeBeacon _ | ftypeData _ | ftypeAck _
  | ftypeMacCommand _ | ftypeUnknown _ _ | ackrqFalse _ _ | ackrqTrue _ _ | damNone _ _ | damUnknown _ _
  | damShort16 _ _ | damLong64 _ _ | samNone _ | samUnknown _ | samShort16 _ | samLong64 _ =>
    cases h
    exact .inl (.single (move_setDraft s _))
  | emit r =>
    cases h
    exact .inl (.single (.emitted r (of_decide_eq_true hwf)))
  | pass bits =>
    cases h
    exact .inl (.single (move_passBits s bits))
  | start =>
    cases h
    exact .inl (.single .started)
  | stop =>
    cases h
    exact .inl (.single (move_stopped s))

/-! The sequencer's step, RUN and INGEST. -/

theorem dispatch_moves {s t : State} (hK : s.cfg.Legal) (h : s.dispatch = some t) : Moves s t := by
  rcases dispatch_cases hK h with
    ⟨hp, hm, rfl⟩ | ⟨hp, hm, rfl⟩ | ⟨hp, f, hf, rfl⟩ | ⟨sy, lf, L, ps, n, hf, rfl⟩ | ⟨-, -, rfl⟩
  · exact moves_matched hp hm
  · exact .tail (.tail (.single (.advanced hp hm)) (move_note _ (by simp : Condition.x4 ∉ [.x1]))) (move_matchSig _ false)
  · exact .single (.lengthRead f hp hf)
  · exact .head (move_completeSig s true) (moves_decodeFrame (s := { s with completeSig := true }) hf)
  · exact .single (move_completeSig s true)

theorem waited_moves (s : State) : Moves s s.waited := by
  unfold State.waited
  split
  · exact .single (move_note s (by simp))
  · exact .single (move_note s (by simp))
  · exact chk_moves s

theorem waited_cfg (s : State) : s.waited.cfg = s.cfg := by
  obtain ⟨c, n, h, -⟩ := waited_eq s
  rw [h]

/-- A property of states with a legal configuration that the sequencer's step and the closing `wait` keep, RUN keeps. -/
theorem runAll_keeps {P : State → Prop} (hstep : ∀ u v, u.cfg.Legal → P u → u.dispatch = some v → P v)
    (hwait : ∀ u, P u → P u.waited) {s : State} (hK : s.cfg.Legal) (hs : P s) : P s.runAll := by
  have hboth : s.runAll.cfg.Legal ∧ P s.runAll := by
    refine runFor_induction (P := fun u => u.cfg.Legal ∧ P u) ?step ?wait _ s ⟨hK, hs⟩
    case step => exact fun u v ⟨hKu, hu⟩ hd => ⟨(dispatch_cfg hKu hd).symm ▸ hKu, hstep u v hKu hu hd⟩
    case wait => exact fun u ⟨hKu, hu⟩ _ => ⟨(waited_cfg u).symm ▸ hKu, hwait u hu⟩
  exact hboth.2

theorem runAll_moves {s : State} (hK : s.cfg.Legal) : Moves s s.runAll :=
  runAll_keeps (P := Moves s) (fun _ _ hKu hu hd => hu.trans (dispatch_moves hKu hd)) (fun u hu => hu.trans (waited_moves u))
    hK .refl

/-- R110: a running block passes a chunk that fits, takes it, and runs until it is quiescent. -/
theorem ingest_eq_next {bits : Bits} {s t : State} (hr : s.run = true) :
    ingest bits s = .next t ↔ s.fits bits = true ∧ ((s.passBits bits).appendBits bits).runAll = t := by
  by_cases hfits : s.fits bits = true <;> simp [ingest, hr, hfits]

theorem ingest_moves {bits : Bits} {s t : State} (hK : s.cfg.Legal) (h : ingest bits s = .next t) : Moves s t := by
  by_cases hr : s.run = true
  · obtain ⟨hfits, rfl⟩ := (ingest_eq_next hr).1 h
    exact .head (move_passBits s bits)
      (.head (.append bits hfits) (runAll_moves (s := (s.passBits bits).appendBits bits) hK))
  · have ht : s.turnAway (.ingest bits) = t := by simpa [ingest, hr] using h
    exact ht ▸ .single (move_turnAway s _)

theorem idle_moves {s : State} (hK : s.cfg.Legal) : Moves s s.idle := by
  unfold State.idle
  split
  · split
    · rename_i t hd
      exact dispatch_moves hK hd
    · exact .refl
  · exact .refl

theorem wellFormed_of_fetchSlot {run : Bool} {slot : Slot} {i : Instr} (h : fetchSlot run slot = .run i) :
    i.wellFormed = true := by
  unfold fetchSlot at h
  split at h
  · cases h
  · split at h
    · rename_i hwf
      split at h
      · cases h
        exact hwf
      · cases h
    · cases h

theorem wellFormed_of_fetch {s : State} {i : Instr} (h : s.fetch = .run i) : i.wellFormed = true := by
  unfold State.fetch at h
  split at h
  · cases h
  · cases h
  · exact wellFormed_of_fetchSlot h

/-- What a step of the machine can do, whatever input it takes. -/
theorem step_cases {s t : State} (hK : s.cfg.Legal) (h : step s = .next t) :
    Moves s t ∨ ∃ n, s.fetch = .run (.consume n) ∧ t = s.taken.consumeBits n := by
  unfold step at h
  split at h
  · cases h
    exact .inl (idle_moves hK)
  · exact .inl (.head (move_taken s) (ingest_moves (s := s.taken) hK h))
  · rename_i i hfetch
    rcases exec_cases (wellFormed_of_fetch hfetch) h with hmoves | ⟨n, rfl, ht⟩
    · exact .inl (.head (move_taken s) hmoves)
    · exact .inr ⟨n, hfetch, ht⟩
  · cases h
    exact .inl (.head (move_taken s) (.single (move_turnAway _ _)))
  · cases h

/-! ### Records (R22) -/

theorem recordShape_frameOut {c : Config} {sy lf ps : Bits} {L : Byte} {n : Nat} (hsy : sy.length = c.K)
    (hlf : lf.length = 8) (hps : psduShape ps L) (hn : n = frameBits c.K L) :
    recordShape (frameOut c sy lf L ps n) :=
  ⟨hlf, hps, rfl, rfl, rfl, by simp [frameOut, hsy, hn, frameBits]⟩

theorem total_of_inv {s : State} {L : Byte} {n : Nat} (hs : s.Inv) (hp : s.phase = .body) (hl : s.lreg = some L)
    (hn : s.total = some n) : n = frameBits s.cfg.K L := by
  have hok := hs.phase_ok
  simp only [State.PhaseConsistent, hp] at hok
  obtain ⟨L', hl', hn'⟩ := hok
  simp_all

theorem recordShape_of_pendingFrame {s : State} {sy lf ps : Bits} {L : Byte} {n : Nat} (hs : s.Inv)
    (h : s.pendingFrame = some (sy, lf, L, ps, n)) : recordShape (frameOut s.cfg sy lf L ps n) := by
  obtain ⟨hp, hl, hn, -, hsy, hlf, hps⟩ := pendingFrame_eq.1 h
  exact recordShape_frameOut (slice_length hsy) (slice_length hlf) (slice_length hps) (total_of_inv hs hp hl hn)

theorem toNat_ofNat_be {f : Bits} (hf : f.length = 8) : (BitVec.ofNat 8 (be f)).toNat = be f := by
  have hlt := be_lt f
  rw [hf] at hlt
  simpa using hlt

/-- R24 (d) makes the record's `L` the value of its length bits. -/
theorem recordCoherent_of_pendingFrame {s : State} {sy lf ps : Bits} {L : Byte} {n : Nat} (hs : s.R24)
    (h : s.pendingFrame = some (sy, lf, L, ps, n)) : recordCoherent (frameOut s.cfg sy lf L ps n) := by
  refine ⟨recordShape_of_pendingFrame hs.toInv h, ?_⟩
  obtain ⟨hp, hl, -, -, -, hlf, -⟩ := pendingFrame_eq.1 h
  obtain ⟨f, hf, hlf'⟩ := hs.length_held hp
  obtain rfl : lf = f := Option.some.inj (hlf.symm.trans hf)
  obtain rfl : L = BitVec.ofNat 8 (be lf) := Option.some.inj (hl.symm.trans hlf')
  exact toNat_ofNat_be (slice_length hf)

theorem forall_mem_concat {P : FrameOut → Prop} {l : List FrameOut} {r : FrameOut} (hl : ∀ x ∈ l, P x) (hr : P r) :
    ∀ x ∈ l ++ [r], P x :=
  List.forall_mem_append.2 ⟨hl, List.forall_mem_singleton.2 hr⟩

/-! ### The invariant of every step (R10, R22, R24 (a), (b)) -/

theorem Move.inv {s t : State} (h : Move s t) (hs : s.Inv) : t.Inv := by
  have hscan := hs.scan_le
  cases h with
  | quiet _ _ _ _ _ _ _ _ _ hnotes => exact { hs with no_x4 := fun h => hs.no_x4 (hnotes h) }
  | append bits hfits =>
    exact { hs with
      scan_le := by simpa using Nat.le_add_right_of_le hscan
      memory := appendBits_wf hfits }
  | matched hp _ => exact { hs with phase_ok := by simpa [State.PhaseConsistent, hp] using hs.phase_ok }
  | advanced _ hm =>
    have hwindow := (matchAt_eq_some.1 hm).1
    have hK : 1 ≤ s.cfg.K := hs.legal
    exact { hs with scan_le := by simp; omega }
  | lengthRead f _ _ => exact { hs with phase_ok := ⟨_, rfl, rfl⟩ }
  | sliced sy lf L ps n hf =>
    exact { hs with
      scan_le := Nat.zero_le _
      memory := memory_wf_of_length_le (by simp) hs.memory
      phase_ok := ⟨rfl, rfl⟩
      records := forall_mem_concat hs.records (recordShape_of_pendingFrame hs hf) }
  | emitted r hr => exact { hs with records := forall_mem_concat hs.records hr.1 }
  | started =>
    exact { hs with
      scan_le := Nat.zero_le _
      memory := started_wf s
      phase_ok := ⟨rfl, rfl⟩ }

theorem Moves.inv {s t : State} (h : Moves s t) (hs : s.Inv) : t.Inv :=
  h.keeps (fun _ _ hmove => hmove.inv) hs

theorem consumeBits_inv {s : State} (n : Nat) (hs : s.Inv) : (s.consumeBits n).Inv :=
  { hs with
    scan_le := by
      have hscan := hs.scan_le
      simp
      omega
    memory := consumeBits_wf n hs.memory }

/-- Settles O49: each change of the state keeps the invariant, and so does CONSUME. -/
theorem everyStepKeepsInvariant : Obligations.EveryStepKeepsInvariant := by
  intro s t hs h
  rcases step_cases hs.legal h with hmoves | ⟨n, -, rfl⟩
  · exact hmoves.inv hs
  · exact consumeBits_inv n ((move_taken s).inv hs)

/-! ### The pending frame and the dead offsets (R24 (c) to (e)) -/

theorem matchAt_appendBits {s : State} {i : Nat} {b : Bool} (bits : Bits) (h : s.matchAt i = some b) :
    (s.appendBits bits).matchAt i = some b := by
  obtain ⟨w, hw, hb⟩ := Option.map_eq_some_iff.1 h
  exact Option.map_eq_some_iff.2 ⟨w, slice_append bits hw, hb⟩

theorem matchAt_consumeBits (s : State) (n i : Nat) :
    (s.consumeBits n).matchAt i = s.matchAt (min n s.buf.length + i) :=
  congrArg (Option.map _) (slice_drop _ _ _ _ (Nat.min_le_right _ _))

theorem Move.r24 {s t : State} (h : Move s t) (hs : s.R24) : t.R24 := by
  have hinv := h.inv hs.toInv
  cases h with
  | quiet => exact { hs with toInv := hinv }
  | append bits _ =>
    refine { hs with toInv := hinv, pending_matches := ?_, length_held := ?_, examined := ?_ }
    · exact fun hp => matchAt_appendBits bits (hs.pending_matches hp)
    · intro hp
      obtain ⟨f, hf, hl⟩ := hs.length_held hp
      exact ⟨f, slice_append bits hf, hl⟩
    · exact fun i hi => matchAt_appendBits bits (hs.examined i hi)
  | matched _ hm => exact { hs with toInv := hinv, pending_matches := fun _ => hm, length_held := nofun }
  | advanced hp hm =>
    refine { hs with
      toInv := hinv
      pending_matches := fun h => absurd hp h
      length_held := fun h => nomatch hp.symm.trans h
      examined := ?_ }
    intro i hi
    rcases Nat.lt_succ_iff_lt_or_eq.1 hi with h | rfl
    · exact hs.examined i h
    · exact hm
  | lengthRead f hp hf =>
    exact { hs with
      toInv := hinv
      pending_matches := fun _ => hs.pending_matches (by simp [hp])
      length_held := fun _ => ⟨f, hf, rfl⟩ }
  | sliced sy lf L ps n hf =>
    exact { hs with
      toInv := hinv
      pending_matches := fun h => absurd rfl h
      length_held := nofun
      examined := fun i hi => absurd hi (Nat.not_lt_zero i)
      coherent := forall_mem_concat hs.coherent (recordCoherent_of_pendingFrame hs hf) }
  | emitted r hr => exact { hs with toInv := hinv, coherent := forall_mem_concat hs.coherent hr }
  | started =>
    exact { hs with
      toInv := hinv
      pending_matches := fun h => absurd rfl h
      length_held := nofun
      examined := fun i hi => absurd hi (Nat.not_lt_zero i) }

theorem Moves.r24 {s t : State} (h : Moves s t) (hs : s.R24) : t.R24 :=
  h.keeps (fun _ _ hmove => hmove.r24) hs

/-- While no sync is pending CONSUME only renumbers the dead offsets it leaves. -/
theorem consumeBits_r24 {s : State} (n : Nat) (hp : s.phase = .search) (hs : s.R24) : (s.consumeBits n).R24 := by
  refine { hs with
    toInv := consumeBits_inv n hs.toInv
    pending_matches := fun h => absurd hp h
    length_held := fun h => nomatch hp.symm.trans h
    examined := ?_ }
  intro i hi
  rw [State.consumeBits_scan] at hi
  rw [matchAt_consumeBits]
  exact hs.examined _ (by omega)

theorem phase_of_consume_not_cutting {s : State} {n : Nat} (hfetch : s.fetch = .run (.consume n))
    (hcut : s.cutsPendingFrame = false) : s.phase = .search := by
  simpa [State.cutsPendingFrame, hfetch] using hcut

/-- Settles O50: each change of the state keeps R24, and a CONSUME that is not excluded finds no pending sync. -/
theorem everyStepKeepsPendingFrame : Obligations.EveryStepKeepsPendingFrame := by
  intro s t hs hcut h
  rcases step_cases hs.legal h with hmoves | ⟨n, hfetch, rfl⟩
  · exact hmoves.r24 hs
  · have hp : s.phase = .search := phase_of_consume_not_cutting hfetch hcut
    exact consumeBits_r24 n (s := s.taken) hp ((move_taken s).r24 hs)

/-! ### Quiescence (R24 (g), R113) -/

theorem dispatch_search {s : State} (hp : s.phase = .search) :
    s.dispatch = if s.cfg.K ≤ s.live then some s.corrAdv else none := by
  simp [State.dispatch, hp]

theorem dispatch_len {s : State} (hp : s.phase = .len) :
    s.dispatch = if s.cfg.K + 8 ≤ s.live then some s.len else none := by
  simp [State.dispatch, hp]

theorem dispatch_body {s : State} (hp : s.phase = .body) :
    s.dispatch = if s.complete? = some true then some s.chk.slice else none := by
  rcases hc : s.complete? with _ | _ | _ <;> simp [State.dispatch, hp, hc]

theorem quiescent_search {s : State} (hp : s.phase = .search) : s.Quiescent ↔ s.live < s.cfg.K := by
  simp [State.Quiescent, dispatch_search hp]

theorem quiescent_len {s : State} (hp : s.phase = .len) : s.Quiescent ↔ s.live < s.cfg.K + 8 := by
  simp [State.Quiescent, dispatch_len hp]

theorem quiescent_body {s : State} {n : Nat} (hp : s.phase = .body) (hn : s.total = some n) :
    s.Quiescent ↔ s.live < n := by
  have hc : s.complete? = some (decide (n ≤ s.live)) := complete?_eq.2 ⟨hp, n, hn, rfl⟩
  simp [State.Quiescent, dispatch_body hp, hc]

/-- The largest frame is that of `L = 255` (R78). -/
theorem frameBits_le (K : Nat) (L : Byte) : frameBits K L ≤ K + 2064 := by
  have hL := L.isLt
  unfold frameBits
  omega

/-- Settles O51: the lower bounds are the bits R24 (c) and (d) hold, the upper ones the quiescence of each phase. -/
theorem quiescentBounds : Obligations.QuiescentBounds := by
  intro s hs hq
  refine ⟨fun hp => ?search, fun hp => ?len, fun hp => ?body⟩
  case search =>
    have hlt : s.buf.length - s.scan < s.cfg.K := (quiescent_search hp).1 hq
    omega
  case len =>
    have hlt : s.buf.length - s.scan < s.cfg.K + 8 := (quiescent_len hp).1 hq
    have hwindow := (matchAt_eq_some.1 (hs.pending_matches (by simp [hp]))).1
    omega
  case body =>
    obtain ⟨L, -, hn⟩ : ∃ L, s.lreg = some L ∧ s.total = some (frameBits s.cfg.K L) := by
      simpa [State.PhaseConsistent, hp] using hs.phase_ok
    have hlt : s.buf.length - s.scan < frameBits s.cfg.K L := (quiescent_body hp hn).1 hq
    obtain ⟨f, hf, -⟩ := hs.length_held hp
    have hlength := (slice_eq_some.1 hf).1
    have hmax := frameBits_le s.cfg.K L
    exact ⟨_, hn, by omega, by omega, by omega⟩

/-! ### Held bits and outputs (R11, R22) -/

/-- Only SLICE shortens the buffer, and it drops from the head. -/
theorem dispatch_buf_suffix {s t : State} (hK : s.cfg.Legal) (h : s.dispatch = some t) : t.buf <:+ s.buf := by
  rcases dispatch_cases hK h with ⟨-, -, rfl⟩ | ⟨-, -, rfl⟩ | ⟨-, f, -, rfl⟩ | ⟨sy, lf, L, ps, n, -, rfl⟩ | ⟨-, -, rfl⟩
  · exact List.suffix_rfl
  · exact List.suffix_rfl
  · exact List.suffix_rfl
  · exact List.drop_suffix _ _
  · exact List.suffix_rfl

/-- The sequencer neither starts nor stops the block, and passes no chunk. -/
theorem dispatch_run_pt {s t : State} (hK : s.cfg.Legal) (h : s.dispatch = some t) : t.run = s.run ∧ t.pt = s.pt := by
  rcases dispatch_cases hK h with ⟨-, -, rfl⟩ | ⟨-, -, rfl⟩ | ⟨-, f, -, rfl⟩ | ⟨sy, lf, L, ps, n, -, rfl⟩ | ⟨-, -, rfl⟩ <;>
    exact ⟨rfl, rfl⟩

theorem waited_buf (s : State) : s.waited.buf = s.buf := by
  obtain ⟨c, n, h, -⟩ := waited_eq s
  rw [h]

theorem waited_run_pt (s : State) : s.waited.run = s.run ∧ s.waited.pt = s.pt := by
  obtain ⟨c, n, h, -⟩ := waited_eq s
  rw [h]
  exact ⟨rfl, rfl⟩

theorem runAll_buf_suffix {s : State} (hK : s.cfg.Legal) : s.runAll.buf <:+ s.buf :=
  runAll_keeps (P := fun u => u.buf <:+ s.buf) (fun _ _ hKu hu hd => (dispatch_buf_suffix hKu hd).trans hu)
    (fun u hu => (waited_buf u).symm ▸ hu) hK List.suffix_rfl

theorem runAll_run_pt {s : State} (hK : s.cfg.Legal) : s.runAll.run = s.run ∧ s.runAll.pt = s.pt :=
  runAll_keeps (P := fun u => u.run = s.run ∧ u.pt = s.pt)
    (fun _ _ hKu ⟨hrun, hpt⟩ hd =>
      have ⟨hrun', hpt'⟩ := dispatch_run_pt hKu hd
      ⟨hrun'.trans hrun, hpt'.trans hpt⟩)
    (fun u ⟨hrun, hpt⟩ =>
      have ⟨hrun', hpt'⟩ := waited_run_pt u
      ⟨hrun'.trans hrun, hpt'.trans hpt⟩)
    hK ⟨rfl, rfl⟩

theorem runAll_cfg {s : State} (hK : s.cfg.Legal) : s.runAll.cfg = s.cfg :=
  runAll_keeps (P := fun u => u.cfg = s.cfg) (fun _ _ hKu hu hd => (dispatch_cfg hKu hd).trans hu)
    (fun u hu => (waited_cfg u).trans hu) hK rfl

/-- Settles O52: what RUN keeps, from the buffer with the chunk at its tail. -/
theorem bufferIsSuffixOfStream : Obligations.BufferIsSuffixOfStream := by
  refine ⟨fun s t hs h => dispatch_buf_suffix hs.legal h, fun bits s t hs hr h => ?_⟩
  obtain ⟨-, rfl⟩ := (ingest_eq_next hr).1 h
  have hK : ((s.passBits bits).appendBits bits).cfg.Legal := hs.legal
  have hbuf : ((s.passBits bits).appendBits bits).runAll.buf <:+ s.buf ++ bits := runAll_buf_suffix hK
  have hpt : ((s.passBits bits).appendBits bits).runAll.pt = s.pt ++ [bits] := (runAll_run_pt hK).2
  refine ⟨hbuf, hpt, fun hstream => hbuf.trans ?_⟩
  obtain ⟨u, hu⟩ := hstream
  exact ⟨u, by rw [hpt, List.flatten_concat, ← hu, List.append_assoc]⟩

theorem Move.outputs_prefix {s t : State} (h : Move s t) : s.out <+: t.out ∧ s.pt <+: t.pt := by
  cases h with
  | quiet _ _ _ _ _ _ _ _ hpt _ => exact ⟨List.prefix_rfl, hpt⟩
  | sliced | emitted => exact ⟨List.prefix_append _ _, List.prefix_rfl⟩
  | append | matched | advanced | lengthRead | started => exact ⟨List.prefix_rfl, List.prefix_rfl⟩

theorem Moves.outputs_prefix {s t : State} (h : Moves s t) : s.out <+: t.out ∧ s.pt <+: t.pt :=
  h.keeps (P := fun u => s.out <+: u.out ∧ s.pt <+: u.pt)
    (fun _ _ hmove hu => ⟨hu.1.trans hmove.outputs_prefix.1, hu.2.trans hmove.outputs_prefix.2⟩)
    ⟨List.prefix_rfl, List.prefix_rfl⟩

/-- Settles O54: each change of the state only adds to the two lists, and CONSUME leaves them. -/
theorem outputsAreNeverWithdrawn : Obligations.OutputsAreNeverWithdrawn := by
  intro s t hs h
  rcases step_cases hs.legal h with hmoves | ⟨n, -, rfl⟩
  · exact hmoves.outputs_prefix
  · exact ⟨List.prefix_rfl, List.prefix_rfl⟩

/-! ### Only the live bits matter (R25) -/

@[simp] theorem trimmed_trimmed (s : State) : s.trimmed.trimmed = s.trimmed := rfl

@[simp] theorem trimmed_cfg (s : State) : s.trimmed.cfg = s.cfg := rfl

@[simp] theorem trimmed_live (s : State) : s.trimmed.live = s.live := by simp [State.trimmed, State.live]

@[simp] theorem trimmed_complete? (s : State) : s.trimmed.complete? = s.complete? := by
  unfold State.complete?
  rw [trimmed_live]
  rfl

theorem trimmed_memRead {s : State} (hs : s.scan ≤ s.buf.length) (a n : Nat) :
    s.trimmed.memRead a n = s.memRead (s.scan + a) n :=
  slice_drop s.buf s.scan a n hs

theorem trimmed_matchAt {s : State} (hs : s.scan ≤ s.buf.length) : s.trimmed.matchAt 0 = s.matchAt s.scan :=
  congrArg (Option.map _) (trimmed_memRead hs 0 s.cfg.K)

theorem trimmed_pendingFrame {s : State} (hs : s.scan ≤ s.buf.length) : s.trimmed.pendingFrame = s.pendingFrame := by
  ext ⟨sy, lf, L, ps, n⟩
  simp only [pendingFrame_eq, trimmed_live, trimmed_memRead hs]
  simp [State.trimmed, Nat.add_assoc]

theorem trimmed_inv {s : State} (hs : s.Inv) : s.trimmed.Inv :=
  { hs with
    scan_le := Nat.zero_le _
    memory := memory_wf_of_length_le (by simp [State.trimmed]) hs.memory }

theorem trimmed_appendBits {s : State} (hs : s.scan ≤ s.buf.length) (bits : Bits) :
    (s.appendBits bits).trimmed = s.trimmed.appendBits bits := by
  simp [State.trimmed, State.appendBits, List.drop_append_of_le_length hs]

theorem trimmed_len {s : State} (hs : s.scan ≤ s.buf.length) : s.trimmed.len = s.len.trimmed := by
  by_cases hp : s.phase = .len
  · have hread : s.trimmed.memRead (s.trimmed.scan + s.trimmed.cfg.K) 8 = s.memRead (s.scan + s.cfg.K) 8 := by
      rw [trimmed_memRead hs]
      simp [State.trimmed]
    rcases hf : s.memRead (s.scan + s.cfg.K) 8 with _ | f
    · rw [len_of_missing hp hf, len_of_missing (s := s.trimmed) hp (hread.trans hf)]
      rfl
    · rw [len_of_held hp hf, len_of_held (s := s.trimmed) hp (hread.trans hf)]
      rfl
  · rw [len_of_phase hp, len_of_phase (s := s.trimmed) hp]

theorem trimmed_chk (s : State) : s.trimmed.chk = s.chk.trimmed := by
  unfold State.chk
  rw [trimmed_complete?]
  rcases s.complete? with _ | _ | _ <;> rfl

/-- SLICE consumes the dead bits with the frame, so it does not matter whether they were dropped before. -/
theorem trimmed_slice {s : State} (hs : s.scan ≤ s.buf.length) : s.trimmed.slice = s.slice.trimmed := by
  rcases hf : s.pendingFrame with _ | ⟨sy, lf, L, ps, n⟩
  · rw [slice_of_none hf, slice_of_none ((trimmed_pendingFrame hs).trans hf)]
  · rw [slice_of_pending hf, slice_of_pending ((trimmed_pendingFrame hs).trans hf)]
    have hend : s.scan + min n (s.buf.length - s.scan) = min (s.scan + n) s.buf.length := by omega
    simp [State.trimmed, State.decodeFrame, State.emitRecord, State.note, State.release, State.consumeBits, hend]

/-- The one step that two blocks with the same live bits take apart: a mismatch adds a dead bit. -/
theorem trimmed_corrAdv {s : State} {b : Bool} (hs : s.scan ≤ s.buf.length) (hp : s.phase = .search)
    (hm : s.matchAt s.scan = some b) : s.trimmed.corrAdv.trimmed = s.corrAdv.trimmed := by
  have hm' : s.trimmed.matchAt 0 = some b := (trimmed_matchAt hs).trans hm
  cases b with
  | true => rw [corrAdv_of_match hp hm, corrAdv_of_match (s := s.trimmed) hp hm']; rfl
  | false =>
    rw [corrAdv_of_mismatch hp hm, corrAdv_of_mismatch (s := s.trimmed) hp hm']
    simp [State.trimmed]

theorem trimmed_dispatch {s : State} (hs : s.scan ≤ s.buf.length) :
    s.trimmed.dispatch.map State.trimmed = s.dispatch.map State.trimmed := by
  cases hp : s.phase with
  | search =>
    rw [dispatch_search hp, dispatch_search (s := s.trimmed) hp, trimmed_live, trimmed_cfg]
    by_cases hle : s.cfg.K ≤ s.live
    · have hwindow : s.scan + s.cfg.K ≤ s.buf.length := by
        unfold State.live at hle
        omega
      obtain ⟨b, hm⟩ := matchAt_isSome hwindow
      simp [hle, trimmed_corrAdv hs hp hm]
    · simp [hle]
  | len =>
    rw [dispatch_len hp, dispatch_len (s := s.trimmed) hp, trimmed_live, trimmed_cfg, trimmed_len hs]
    split <;> simp
  | body =>
    have hchk : s.chk.scan ≤ s.chk.buf.length := by
      rcases chk_cases s with ⟨-, h⟩ | ⟨-, h⟩ | ⟨-, h⟩ <;> simpa [h] using hs
    rw [dispatch_body hp, dispatch_body (s := s.trimmed) hp, trimmed_complete?, trimmed_chk, trimmed_slice hchk]
    split <;> simp

theorem trimmed_waited (s : State) : s.trimmed.waited = s.waited.trimmed := by
  cases hp : s.phase with
  | search | len => simp [State.waited, State.trimmed, State.note, hp]
  | body =>
    have hw : s.waited = s.chk := by simp [State.waited, hp]
    have hw' : s.trimmed.waited = s.trimmed.chk := by simp [State.waited, State.trimmed, hp]
    rw [hw, hw', trimmed_chk]

/-- Two good blocks with the same live bits run in step: where one waits the other waits, and after each step their live
bits are the same again. -/
theorem runFor_trimmed (fuel : Nat) {s s' : State} (hs : s.Inv) (hs' : s'.Inv) (h : s.trimmed = s'.trimmed) :
    (runFor fuel s).trimmed = (runFor fuel s').trimmed := by
  induction fuel generalizing s s' with
  | zero => exact h
  | succ fuel ih =>
    have hd : s.dispatch.map State.trimmed = s'.dispatch.map State.trimmed := by
      rw [← trimmed_dispatch hs.scan_le, h, trimmed_dispatch hs'.scan_le]
    rcases ht : s.dispatch with _ | t
    · have ht' : s'.dispatch = none := by simpa [ht, eq_comm] using hd
      simp only [runFor, ht, ht', ← trimmed_waited, h]
    · obtain ⟨t', ht', htrim⟩ : ∃ t', s'.dispatch = some t' ∧ t'.trimmed = t.trimmed := by
        simpa [ht, eq_comm] using hd
      simp only [runFor, ht, ht']
      exact ih ((dispatch_moves hs.legal ht).inv hs) ((dispatch_moves hs'.legal ht').inv hs') htrim.symm

theorem runAll_trimmed {s s' : State} (hs : s.Inv) (hs' : s'.Inv) (h : s.trimmed = s'.trimmed) :
    s.runAll.trimmed = s'.runAll.trimmed := by
  have hlive : s.live = s'.live := by rw [← trimmed_live s, h, trimmed_live]
  simpa only [State.runAll, State.runBound, hlive] using runFor_trimmed _ hs hs' h

/-- A running block with unbounded capacity takes every chunk. -/
theorem ingest_of_unbounded {s : State} (bits : Bits) (hr : s.run = true) (hc : s.cfg.cap = none) :
    ingest bits s = .next ((s.passBits bits).appendBits bits).runAll :=
  (ingest_eq_next hr).2 ⟨by simp [State.fits, Memory.wf, hc], rfl⟩

theorem feed_cons {s t : State} {bits : Bits} (chunks : List Bits) (h : ingest bits s = .next t) :
    feed (bits :: chunks) s = feed chunks t := by
  simp [feed, h]

theorem delivered_inv {s : State} (bits : Bits) (hc : s.cfg.cap = none) (hs : s.Inv) :
    ((s.passBits bits).appendBits bits).Inv :=
  (Move.append bits (by simp [State.fits, Memory.wf, hc])).inv ((move_passBits s bits).inv hs)

theorem delivered_trimmed {s s' : State} (bits : Bits) (hs : s.Inv) (hs' : s'.Inv) (h : s.trimmed = s'.trimmed) :
    ((s.passBits bits).appendBits bits).trimmed = ((s'.passBits bits).appendBits bits).trimmed := by
  have hpass (u : State) : (u.passBits bits).trimmed = u.trimmed.passBits bits := rfl
  rw [trimmed_appendBits (s := s.passBits bits) hs.scan_le, trimmed_appendBits (s := s'.passBits bits) hs'.scan_le,
    hpass, hpass, h]

/-- Two good running blocks with the same live bits take every list of chunks to the same live bits. -/
theorem feed_trimmed (chunks : List Bits) {s s' : State} (hs : s.Inv) (hs' : s'.Inv) (hr : s.run = true)
    (hc : s.cfg.cap = none) (h : s.trimmed = s'.trimmed) :
    ∃ t u, feed chunks s = .next t ∧ feed chunks s' = .next u ∧ t.trimmed = u.trimmed := by
  induction chunks generalizing s s' with
  | nil => exact ⟨s, s', rfl, rfl, h⟩
  | cons bits chunks ih =>
    have hr' : s'.run = true := (congrArg State.run h).symm.trans hr
    have hc' : s'.cfg.cap = none := (congrArg (fun u : State => u.cfg.cap) h).symm.trans hc
    have hd := delivered_inv bits hc hs
    have hd' := delivered_inv bits hc' hs'
    rw [feed_cons chunks (ingest_of_unbounded bits hr hc), feed_cons chunks (ingest_of_unbounded bits hr' hc')]
    refine ih ((runAll_moves hd.legal).inv hd) ((runAll_moves hd'.legal).inv hd') ?run ?cap
      (runAll_trimmed hd hd' (delivered_trimmed bits hs hs' h))
    case run => exact (runAll_run_pt hd.legal).1.trans hr
    case cap => exact (congrArg Config.cap (runAll_cfg hd.legal)).trans hc

/-- Settles O58: the two blocks are the same once both drop their dead bits, and stay so. -/
theorem deadBitsDoNotMatter : Obligations.DeadBitsDoNotMatter := by
  intro s chunks hs hr hc
  obtain ⟨t, u, ht, hu, h⟩ := feed_trimmed chunks hs (trimmed_inv hs) hr hc (trimmed_trimmed s).symm
  exact ⟨t, u, ht, hu, (congrArg State.out h :), (congrArg State.phase h :), (congrArg State.lreg h :),
    (congrArg State.total h :), (congrArg State.buf h :)⟩

/-! ### Reset (R26) and construction (R19, R137) -/

theorem reset_inv : State.reset.Inv where
  legal := by decide
  scan_le := Nat.zero_le _
  memory := reset_wf
  phase_ok := ⟨rfl, rfl⟩
  no_x4 := List.not_mem_nil
  records := by simp [State.reset]

theorem reset_r24 : State.reset.R24 where
  toInv := reset_inv
  pending_matches h := absurd rfl h
  length_held := nofun
  examined i hi := absurd hi (Nat.not_lt_zero i)
  coherent := by simp [State.reset]

/-- Settles O48: the field values are those written in `State.reset`; without bits SEARCH waits. -/
theorem resetStateIsGood : Obligations.ResetStateIsGood :=
  ⟨rfl, rfl, rfl, rfl, rfl, rfl, (quiescent_search rfl).2 (by decide), ⟨rfl, rfl, rfl⟩, reset_inv, reset_r24⟩

theorem built_inv {c : Config} (hc : c.Legal) : (built c).Inv :=
  { reset_inv with
    legal := hc
    memory := started_wf (built c) }

/-- R57: a text of the characters `0` and `1` and spaces is the pattern without its spaces, leftmost character first. -/
theorem parsePattern_of_binary {text : List Char} (h : ∀ x ∈ text, x = '0' ∨ x = '1' ∨ x = ' ') :
    parsePattern text = some ((text.filter fun x => x != ' ').map fun x => x == '1') := by
  induction text with
  | nil => rfl
  | cons c text ih =>
    have hrest := ih fun x hx => h x (List.mem_cons_of_mem c hx)
    rcases h c List.mem_cons_self with rfl | rfl | rfl <;> simp [parsePattern, hrest]

theorem parsePattern_of_nonBinary {text : List Char} (h : ∃ x ∈ text, x ≠ '0' ∧ x ≠ '1' ∧ x ≠ ' ') :
    parsePattern text = none := by
  induction text with
  | nil => simp at h
  | cons c text ih =>
    obtain ⟨x, hx, h0, h1, hspace⟩ := h
    rcases List.mem_cons.1 hx with rfl | hx
    · simp [parsePattern, h0, h1, hspace]
    · simp [parsePattern, ih ⟨x, hx, h0, h1, hspace⟩]

section
variable {text : List Char} {threshold : Int}

theorem construct_of_nonBinary (h : parsePattern text = none) : construct text threshold = .error .nonBinaryPattern := by
  simp [construct, configure, h]

theorem construct_of_empty (h : parsePattern text = some []) : construct text threshold = .error .emptyPattern := by
  simp [construct, configure, h]

theorem construct_of_negative {p : Bits} (h : parsePattern text = some p) (hp : p ≠ []) (ht : threshold < 0) :
    construct text threshold = .error .negativeThreshold := by
  obtain ⟨b, p, rfl⟩ := List.exists_cons_of_ne_nil hp
  simp [construct, configure, h, ht]

theorem construct_of_legal {p : Bits} (h : parsePattern text = some p) (hp : p ≠ []) (ht : 0 ≤ threshold) :
    construct text threshold = .ok (built (Config.make p threshold.toNat)) := by
  obtain ⟨b, p, rfl⟩ := List.exists_cons_of_ne_nil hp
  simp [construct, configure, h, Int.not_lt.2 ht]

/-- R5: no block is built with a negative threshold, whatever its pattern. -/
theorem construct_negative_ne_ok (ht : threshold < 0) (s : State) : construct text threshold ≠ .ok s := by
  rcases h : parsePattern text with _ | _ | ⟨b, p⟩
  · simp [construct_of_nonBinary h]
  · simp [construct_of_empty h]
  · simp [construct_of_negative h (List.cons_ne_nil b p) ht]

end

/-- Settles O60: what the text is read as, and then one equation of `construct` per case. -/
theorem constructionChecksConfiguration : Obligations.ConstructionChecksConfiguration := by
  intro text threshold
  refine ⟨construct_negative_ne_ok, fun hbad => construct_of_nonBinary (parsePattern_of_nonBinary hbad),
    fun hspaces => ?spaces, fun hbinary hsome => ?binary⟩
  case spaces =>
    have hbinary : ∀ x ∈ text, x = '0' ∨ x = '1' ∨ x = ' ' := fun x hx => .inr (.inr (hspaces x hx))
    apply construct_of_empty
    rw [parsePattern_of_binary hbinary]
    simpa using hspaces
  case binary =>
    have hparse := parsePattern_of_binary hbinary
    have hne : (text.filter fun x => x != ' ').map (fun x => x == '1') ≠ [] := by simpa using hsome
    refine ⟨construct_of_negative hparse hne, fun ht => ⟨_, construct_of_legal hparse hne ht, rfl, ?_⟩⟩
    exact ⟨Int.toNat_of_nonneg ht, ⟨rfl, rfl, rfl⟩, rfl, rfl, rfl, built_inv (List.length_pos_iff.2 hne)⟩

end Sys2Proof.Machine
end

section
/-! SUPPORT. Proofs of the statements on 20_memory.md: the configuration (R40), chunks that do not fit (R43), the empty
chunk (R42) and chunk boundaries (R41). -/

namespace Sys2Proof.Machine

-- Elaborated in parallel, behind the tests' `decide +kernel`, the theorems below need more threads, each with a stack
-- of its own, than the check's memory limit holds.
set_option Elab.async false

/-! ### Chunks beyond the capacity (R43) -/

theorem fits_eq_false {s : State} {bits : Bits} {c : Nat} (hc : s.cfg.cap = some c)
    (hlt : c < s.buf.length + bits.length) : s.fits bits = false := by
  simpa [State.fits, Memory.wf, hc] using hlt

/-- Settles O3: the chunk does not fit, which is the one thing APPEND and INGEST ask before they take it. -/
theorem chunkBeyondCapacityIsRefused : Obligations.ChunkBeyondCapacityIsRefused := by
  intro bits s c hc hlt
  have hfits : s.fits bits = false := fits_eq_false hc hlt
  refine ⟨?append, fun hr => ?ingest⟩
  case append => simp [exec, execAppend, hfits]
  case ingest => simp [ingest, hr, hfits]

/-! ### The configuration (R40) -/

theorem Move.cfg_eq {s t : State} (h : Move s t) : t.cfg = s.cfg := by
  cases h <;> rfl

theorem Moves.cfg_eq {s t : State} (h : Moves s t) : t.cfg = s.cfg :=
  h.keeps (P := fun u => u.cfg = s.cfg) (fun _ _ hmove hu => hmove.cfg_eq.trans hu) rfl

/-- Settles O53: no change of the state touches the configuration, and CONSUME does not either. -/
theorem configurationIsImmutable : Obligations.ConfigurationIsImmutable := by
  intro s t hs h
  rcases step_cases hs.legal h with hmoves | ⟨n, -, rfl⟩
  · exact hmoves.cfg_eq
  · rfl

/-! ### The sequencer's step, one equation per enabled row (R108) -/

theorem dispatch_of_match {s : State} (hp : s.phase = .search) (hm : s.matchAt s.scan = some true) :
    s.dispatch = some { s with phase := .len, matchSig := true } := by
  have hwindow := (matchAt_eq_some.1 hm).1
  have hle : s.cfg.K ≤ s.live := by unfold State.live; omega
  rw [dispatch_search hp, if_pos hle, corrAdv_of_match hp hm]

theorem dispatch_of_mismatch {s : State} (hp : s.phase = .search) (hm : s.matchAt s.scan = some false) :
    s.dispatch = some { s with scan := s.scan + 1, matchSig := false, notes := s.notes ++ [.x1] } := by
  have hwindow := (matchAt_eq_some.1 hm).1
  have hle : s.cfg.K ≤ s.live := by unfold State.live; omega
  rw [dispatch_search hp, if_pos hle, corrAdv_of_mismatch hp hm]

theorem dispatch_of_length {s : State} {f : Bits} (hp : s.phase = .len)
    (hf : s.memRead (s.scan + s.cfg.K) 8 = some f) : s.dispatch = some (s.lengthRead f) := by
  have hheld := (slice_eq_some.1 hf).1
  have hle : s.cfg.K + 8 ≤ s.live := by unfold State.live; omega
  rw [dispatch_len hp, if_pos hle, len_of_held hp hf]

theorem dispatch_of_frame {s : State} {sy lf ps : Bits} {L : Byte} {n : Nat}
    (hf : s.pendingFrame = some (sy, lf, L, ps, n)) :
    s.dispatch = some ((({ s with completeSig := true } : State).release (s.scan + n)).decodeFrame sy lf L ps n) := by
  obtain ⟨hp, -, hn, hle, -⟩ := pendingFrame_eq.1 hf
  have hc : s.complete? = some true := complete?_eq.2 ⟨hp, n, hn, by simp [hle]⟩
  have hchk : s.chk = { s with completeSig := true } := by simp [State.chk, hc, State.checked_true]
  rw [dispatch_body hp, if_pos hc, slice_of_pending ((chk_pendingFrame s).trans hf), hchk]

/-- R24 (d): the registers of a pending body agree, so once CHK is complete SLICE finds every bit it reads. -/
theorem pendingFrame_ne_none {s : State} (hs : s.Inv) (hc : s.complete? = some true) : s.pendingFrame ≠ none := by
  obtain ⟨hp, n, hn, hle⟩ := complete?_eq.1 hc
  obtain ⟨L, hl, hn'⟩ : ∃ L, s.lreg = some L ∧ s.total = some (frameBits s.cfg.K L) := by
    simpa [State.PhaseConsistent, hp] using hs.phase_ok
  obtain rfl : n = frameBits s.cfg.K L := Option.some.inj (hn.symm.trans hn')
  have hscan := hs.scan_le
  have hheld : s.scan + (s.cfg.K + 8 + (L.toNat + 2) * 8) ≤ s.buf.length := by
    have hlive : s.cfg.K + 8 + (L.toNat + 2) * 8 ≤ s.buf.length - s.scan := of_decide_eq_true hle.symm
    omega
  have hframe := pendingFrame_eq.2 ⟨hp, hl, hn, of_decide_eq_true hle.symm, slice_of_le (by omega),
    slice_of_le (by omega), slice_of_le (by omega)⟩
  simp [hframe]

theorem pendingFrame_end_le {s : State} {sy lf ps : Bits} {L : Byte} {n : Nat} (hs : s.Inv)
    (hf : s.pendingFrame = some (sy, lf, L, ps, n)) : s.scan + n ≤ s.buf.length := by
  obtain ⟨-, -, -, hle, -⟩ := pendingFrame_eq.1 hf
  have hscan := hs.scan_le
  unfold State.live at hle
  omega

/-- What one step of the sequencer can do from a good state. -/
theorem dispatch_cases_of_inv {s t : State} (hs : s.Inv) (h : s.dispatch = some t) :
    (s.phase = .search ∧ s.matchAt s.scan = some true ∧ t = { s with phase := .len, matchSig := true }) ∨
    (s.phase = .search ∧ s.matchAt s.scan = some false ∧
      t = { s with scan := s.scan + 1, matchSig := false, notes := s.notes ++ [.x1] }) ∨
    (s.phase = .len ∧ ∃ f, s.memRead (s.scan + s.cfg.K) 8 = some f ∧ t = s.lengthRead f) ∨
    (∃ sy lf L ps n, s.pendingFrame = some (sy, lf, L, ps, n) ∧
      t = (({ s with completeSig := true } : State).release (s.scan + n)).decodeFrame sy lf L ps n) := by
  rcases dispatch_cases hs.legal h with hmatch | hmismatch | hlength | hframe | ⟨hc, hnone, -⟩
  · exact .inl hmatch
  · exact .inr (.inl hmismatch)
  · exact .inr (.inr (.inl hlength))
  · exact .inr (.inr (.inr hframe))
  · exact absurd hnone (pendingFrame_ne_none hs hc)

/-! ### RUN ends (R109) -/

theorem dispatch_measure_lt {s t : State} (hs : s.Inv) (h : s.dispatch = some t) : t.measure < s.measure := by
  rcases dispatch_cases_of_inv hs h with
    ⟨hp, -, rfl⟩ | ⟨hp, hm, rfl⟩ | ⟨hp, f, -, rfl⟩ | ⟨sy, lf, L, ps, n, hf, rfl⟩
  · simp [State.measure, State.live, hp]
  · have hwindow := (matchAt_eq_some.1 hm).1
    have hK : 1 ≤ s.cfg.K := hs.legal
    simp only [State.measure, State.live, hp]
    omega
  · simp [State.measure, State.live, hp]
  · obtain ⟨hp, hl, hn, -⟩ := pendingFrame_eq.1 hf
    have hpos : 1 ≤ n := by
      rw [total_of_inv hs hp hl hn, frameBits]
      omega
    have hend := pendingFrame_end_le hs hf
    have hfall : 3 * (s.buf.length - (s.scan + n)) + 2 < 3 * (s.buf.length - s.scan) := by omega
    simpa [State.measure, State.live, State.decodeFrame, hp, hend] using hfall

theorem measure_le_runBound (s : State) : s.measure ≤ s.runBound := by
  unfold State.measure State.runBound
  cases s.phase <;> simp

/-- To prove a property of every good state, prove it of the quiescent ones and carry it back over one step of the
sequencer. -/
theorem run_induction {P : ∀ s : State, s.Inv → Prop} (wait : ∀ s hs, s.Quiescent → P s hs)
    (step : ∀ s t hs ht, s.dispatch = some t → P t ht → P s hs) (s : State) (hs : s.Inv) : P s hs := by
  rcases hd : s.dispatch with _ | t
  · exact wait s hs hd
  · exact step s t hs ((dispatch_moves hs.legal hd).inv hs) hd (run_induction wait step t _)
termination_by s.measure
decreasing_by exact dispatch_measure_lt hs hd

/-- Fuel beyond the measure changes nothing of RUN. -/
theorem runFor_fuel {m n : Nat} {s : State} (hs : s.Inv) (hm : s.measure < m) (hn : s.measure < n) :
    runFor m s = runFor n s := by
  induction m generalizing n s with
  | zero => exact absurd hm (Nat.not_lt_zero _)
  | succ m ih =>
    obtain ⟨n, rfl⟩ : ∃ k, n = k + 1 := ⟨n - 1, by omega⟩
    rcases hd : s.dispatch with _ | t
    · simp only [runFor, hd]
    · have hlt := dispatch_measure_lt hs hd
      simp only [runFor, hd]
      exact ih ((dispatch_moves hs.legal hd).inv hs) (by omega) (by omega)

theorem runAll_of_quiescent {s : State} (hq : s.Quiescent) : s.runAll = s.waited := by
  simp [State.runAll, runFor, show s.dispatch = none from hq]

theorem runAll_of_dispatch {s t : State} (hs : s.Inv) (h : s.dispatch = some t) : s.runAll = t.runAll := by
  have hlt := dispatch_measure_lt hs h
  have hs' := measure_le_runBound s
  have ht' := measure_le_runBound t
  calc s.runAll = runFor s.runBound t := by simp [State.runAll, runFor, h]
    _ = t.runAll := runFor_fuel ((dispatch_moves hs.legal h).inv hs) (by omega) (by omega)

/-! ### The sequencer reads the block, and bits still to arrive change none of its steps (R11, R41) -/

/-- All that the sequencer's steps read and write of the block: its configuration, the state of R10 and the records. The
conditions, the status signals, the draft record and the port `pt` are left out. -/
def State.block (s : State) : Config × Bits × Nat × Phase × Option Byte × Option Nat × Bool × List FrameOut :=
  (s.cfg, s.visible)

theorem block_eq_iff {s t : State} : t.block = s.block ↔ t.cfg = s.cfg ∧ t.visible = s.visible := Prod.ext_iff

/-- What two states with the same block can differ in. -/
theorem eq_of_block_eq {s t : State} (h : t.block = s.block) :
    t = { s with
      matchSig := t.matchSig, completeSig := t.completeSig, draft := t.draft, inp := t.inp, pt := t.pt,
      notes := t.notes, turnedAway := t.turnedAway } := by
  cases s
  cases t
  simp_all [State.block, State.visible]

theorem waited_block (s : State) : s.waited.block = s.block := by
  obtain ⟨c, n, h, -⟩ := waited_eq s
  rw [h]
  rfl

theorem pendingFrame_appendBits {s : State} {sy lf ps : Bits} {L : Byte} {n : Nat} (late : Bits)
    (h : s.pendingFrame = some (sy, lf, L, ps, n)) :
    (s.appendBits late).pendingFrame = some (sy, lf, L, ps, n) := by
  obtain ⟨hp, hl, hn, hle, hsy, hlf, hps⟩ := pendingFrame_eq.1 h
  have hlive : s.live ≤ (s.appendBits late).live := by simp [State.live]; omega
  exact pendingFrame_eq.2
    ⟨hp, hl, hn, hle.trans hlive, slice_append late hsy, slice_append late hlf, slice_append late hps⟩

/-- A step that the held bits enable is the same step when more bits stand after them. -/
theorem dispatch_of_late_bits {s s' t : State} (late : Bits) (hs : s.Inv)
    (h : s'.block = (s.appendBits late).block) (hd : s.dispatch = some t) :
    ∃ t', s'.dispatch = some t' ∧ t'.block = (t.appendBits late).block := by
  rw [eq_of_block_eq h]
  rcases dispatch_cases_of_inv hs hd with
    ⟨hp, hm, rfl⟩ | ⟨hp, hm, rfl⟩ | ⟨hp, f, hf, rfl⟩ | ⟨sy, lf, L, ps, n, hf, rfl⟩
  · exact ⟨_, dispatch_of_match hp (matchAt_appendBits late hm), rfl⟩
  · exact ⟨_, dispatch_of_mismatch hp (matchAt_appendBits late hm), rfl⟩
  · exact ⟨_, dispatch_of_length hp (slice_append late hf), rfl⟩
  · refine ⟨_, dispatch_of_frame (pendingFrame_appendBits late hf), ?_⟩
    have hend := pendingFrame_end_le hs hf
    simp [State.block, State.visible, State.decodeFrame, hend, Nat.le_add_right_of_le hend,
      List.drop_append_of_le_length]

@[simp] theorem appendBits_nil (s : State) : s.appendBits [] = s := by simp [State.appendBits]

theorem appendBits_appendBits (s : State) (a b : Bits) :
    (s.appendBits a).appendBits b = s.appendBits (a ++ b) := by
  simp [State.appendBits]

/-- What the sequencer's step makes of the block depends on the block alone. -/
theorem dispatch_block {s s' t : State} (hs : s.Inv) (h : s'.block = s.block) (hd : s.dispatch = some t) :
    ∃ t', s'.dispatch = some t' ∧ t'.block = t.block := by
  simpa using dispatch_of_late_bits [] hs (h.trans (congrArg State.block (appendBits_nil s)).symm) hd

theorem quiescent_of_block_eq {s s' : State} (hs' : s'.Inv) (h : s'.block = s.block) (hq : s.Quiescent) :
    s'.Quiescent := by
  rcases hd : s'.dispatch with _ | t'
  · exact hd
  · obtain ⟨t, ht, -⟩ := dispatch_block hs' h.symm hd
    exact absurd ht (by simp [show s.dispatch = none from hq])

/-! ### RUN on blocks that are the same, and on blocks that get bits later (R41) -/

theorem runAll_quiescent {s : State} (hs : s.Inv) : s.runAll.Quiescent := by
  induction s, hs using run_induction with
  | wait s hs hq =>
    rw [runAll_of_quiescent hq]
    exact quiescent_of_block_eq ((waited_moves s).inv hs) (waited_block s) hq
  | step s t hs _ hd ih =>
    rw [runAll_of_dispatch hs hd]
    exact ih

theorem runAll_block_of_quiescent {s : State} (hq : s.Quiescent) : s.runAll.block = s.block := by
  rw [runAll_of_quiescent hq, waited_block]

theorem runAll_block {s s' : State} (hs : s.Inv) (hs' : s'.Inv) (h : s'.block = s.block) :
    s'.runAll.block = s.runAll.block := by
  induction s, hs using run_induction generalizing s' with
  | wait s hs hq => rw [runAll_block_of_quiescent hq, runAll_block_of_quiescent (quiescent_of_block_eq hs' h hq), h]
  | step s t hs _ hd ih =>
    obtain ⟨t', hd', ht⟩ := dispatch_block hs h hd
    rw [runAll_of_dispatch hs hd, runAll_of_dispatch hs' hd']
    exact ih ((dispatch_moves hs'.legal hd').inv hs') ht

theorem appendBits_inv {s : State} (bits : Bits) (hc : s.cfg.cap = none) (hs : s.Inv) : (s.appendBits bits).Inv :=
  (Move.append bits (by simp [State.fits, Memory.wf, hc])).inv hs

theorem appendBits_block {s s' : State} (bits : Bits) (h : s'.block = s.block) :
    (s'.appendBits bits).block = (s.appendBits bits).block := by
  rw [eq_of_block_eq h]
  rfl

/-- It does not matter to RUN whether bits are there at its start or arrive when it has ended. -/
theorem runAll_late_bits {s : State} (late : Bits) (hs : s.Inv) (hc : s.cfg.cap = none) :
    (s.runAll.appendBits late).runAll.block = (s.appendBits late).runAll.block := by
  induction s, hs using run_induction with
  | wait s hs hq =>
    rw [runAll_of_quiescent hq]
    have hcfg : s.waited.cfg.cap = none := (congrArg Config.cap (waited_cfg s)).trans hc
    exact runAll_block (appendBits_inv late hc hs) (appendBits_inv late hcfg ((waited_moves s).inv hs))
      (appendBits_block late (waited_block s))
  | step s t hs ht hd ih =>
    have hct : t.cfg.cap = none := (congrArg Config.cap (dispatch_cfg hs.legal hd)).trans hc
    obtain ⟨t', hd', ht'⟩ := dispatch_of_late_bits late hs rfl hd
    have hlate := appendBits_inv late hc hs
    rw [runAll_of_dispatch hs hd, runAll_of_dispatch hlate hd', ih hct]
    exact (runAll_block (appendBits_inv late hct ht) ((dispatch_moves hlate.legal hd').inv hlate) ht').symm

/-! ### Ingest calls (R41, R42) -/

theorem passBits_block (s : State) (bits : Bits) : (s.passBits bits).block = s.block := rfl

/-- Settles O56: a quiescent block that is delivered no bit is still quiescent, so RUN is one `wait`. -/
theorem emptyChunkChangesNothing : Obligations.EmptyChunkChangesNothing := by
  intro s hs hq hr
  have hfits : s.fits [] = true := by simpa [State.fits] using hs.memory
  have hpassed : (s.passBits []).Inv := (move_passBits s []).inv hs
  have hquiet : (s.passBits []).Quiescent := quiescent_of_block_eq hpassed (passBits_block s []) hq
  have hingest : ingest [] s = .next (s.passBits []).runAll :=
    (ingest_eq_next hr).2 ⟨hfits, by rw [appendBits_nil]⟩
  obtain ⟨hcfg, hvisible⟩ := block_eq_iff.1 (runAll_block_of_quiescent hquiet)
  exact ⟨_, hingest, hvisible, hcfg, (runAll_run_pt hpassed.legal).2⟩

/-- A list of chunks leaves the block as one RUN on all its bits would. -/
theorem feed_block (chunks : List Bits) {s : State} (hs : s.Inv) (hq : s.Quiescent) (hr : s.run = true)
    (hc : s.cfg.cap = none) :
    ∃ t, feed chunks s = .next t ∧ t.block = (s.appendBits chunks.flatten).runAll.block := by
  induction chunks generalizing s with
  | nil => exact ⟨s, rfl, by simp [runAll_block_of_quiescent hq]⟩
  | cons bits chunks ih =>
    have hd := delivered_inv bits hc hs
    have hrun := (runAll_run_pt hd.legal).1.trans hr
    have hcap := (congrArg Config.cap (runAll_cfg hd.legal)).trans hc
    obtain ⟨t, ht, hblock⟩ := ih ((runAll_moves hd.legal).inv hd) (runAll_quiescent hd) hrun hcap
    refine ⟨t, (feed_cons chunks (ingest_of_unbounded bits hr hc)).trans ht, ?_⟩
    calc t.block
      _ = (((s.passBits bits).appendBits bits).runAll.appendBits chunks.flatten).runAll.block := hblock
      _ = (((s.passBits bits).appendBits bits).appendBits chunks.flatten).runAll.block := runAll_late_bits _ hd hc
      _ = ((s.passBits bits).appendBits (bits :: chunks).flatten).runAll.block := by
        rw [appendBits_appendBits, List.flatten_cons]
      _ = (s.appendBits (bits :: chunks).flatten).runAll.block :=
        runAll_block (appendBits_inv _ hc hs) (appendBits_inv _ hc ((move_passBits s bits).inv hs)) rfl

/-- Settles O57: both lists leave the block as one RUN on the common stream. -/
theorem chunkBoundariesDoNotMatter : Obligations.ChunkBoundariesDoNotMatter := by
  intro s as bs hs hq hr hc hstream
  obtain ⟨t, ht, htblock⟩ := feed_block as hs hq hr hc
  obtain ⟨u, hu, hublock⟩ := feed_block bs hs hq hr hc
  have hblock : t.block = u.block := by rw [htblock, hublock, hstream]
  refine ⟨t, u, ht, hu, ?_⟩
  rw [eq_of_block_eq hblock]
  exact ⟨rfl, rfl, rfl, rfl, rfl⟩

end Sys2Proof.Machine
end

section
/-! SUPPORT. Proofs of the statements on 30_encoding.md: the decoder and the encoder (R47 to R49, R56), the step that runs
a decoded operation, and the fields of the header (R46 to R50). The definitions serve the statements of lemmas only;
`noncomputable` says that no code is wanted for them. -/

namespace Sys2Proof.Machine

open Laws (extract_append_low extract_middle extract_top append_halves)

/-! ### The parts of an `fcf` value (R47) -/

/-- The part above two others. -/
theorem extract_above {u v w : Nat} (x : BitVec u) (y : BitVec v) (z : BitVec w) :
    (x ++ y ++ z).extractLsb' (w + v) u = x :=
  (Laws.extract_append_high (x ++ y) z v u).trans (extract_top x y)

theorem getLsbD_flag (hi : BitVec 10) (field : Bool) (lo : BitVec 5) :
    (hi ++ BitVec.ofBool field ++ lo).getLsbD 5 = field :=
  (BitVec.getLsbD_extractLsb' 5 1 (hi ++ BitVec.ofBool field ++ lo) 0).symm.trans
    ((congrArg (·.getLsbD 0) (extract_middle hi (BitVec.ofBool field) lo)).trans (BitVec.getLsbD_ofBool field 0))

theorem exists_append {v w : Nat} (x : BitVec (v + w)) : ∃ (hi : BitVec v) (lo : BitVec w), x = hi ++ lo :=
  ⟨_, _, BitVec.extractLsb'_append_extractLsb'.symm⟩

theorem exists_append_append {u v w : Nat} (x : BitVec (u + v + w)) :
    ∃ (hi : BitVec u) (mid : BitVec v) (lo : BitVec w), x = hi ++ mid ++ lo :=
  ⟨_, _, _, BitVec.extractLsb'_append_extractLsb'.symm.trans
    (congrArg (· ++ x.extractLsb' 0 w) BitVec.extractLsb'_append_extractLsb'.symm)⟩

theorem two_bits_cases {P : BitVec 2 → Prop} (h₀ : P 0b00#2) (h₁ : P 0b01#2) (h₂ : P 0b10#2) (h₃ : P 0b11#2)
    (x : BitVec 2) : P x := by
  have hx : ∀ x : BitVec 2, x = 0b00#2 ∨ x = 0b01#2 ∨ x = 0b10#2 ∨ x = 0b11#2 := by decide
  rcases hx x with rfl | rfl | rfl | rfl
  · exact h₀
  · exact h₁
  · exact h₂
  · exact h₃

theorem exists_two_bits {P : BitVec 2 → Prop} (h : P 0b00#2 ∨ P 0b01#2 ∨ P 0b10#2 ∨ P 0b11#2) : ∃ x, P x := by
  rcases h with h | h | h | h
  · exact ⟨0b00#2, h⟩
  · exact ⟨0b01#2, h⟩
  · exact ⟨0b10#2, h⟩
  · exact ⟨0b11#2, h⟩

/-- A frame type above 3 has its highest bit set, which is all that the row `Unknown` fixes (R48). -/
theorem three_bits_cases {P : BitVec 3 → Prop} (h₀ : P 0b000#3) (h₁ : P 0b001#3) (h₂ : P 0b010#3) (h₃ : P 0b011#3)
    (h₄ : ∀ lo : BitVec 2, P (0b1#1 ++ lo)) (x : BitVec 3) : P x := by
  obtain ⟨hi, lo, rfl⟩ := exists_append (v := 1) (w := 2) x
  rcases BitVec.eq_zero_or_eq_one hi with rfl | rfl
  · exact two_bits_cases (P := fun lo => P (0b0#1 ++ lo)) h₀ h₁ h₂ h₃ lo
  · exact h₄ lo

/-! ### The rows of the value tables, by the parts of an `fcf` value (R47 to R49) -/

/-- The row of table FTYPE whose examined bits are `field`. -/
noncomputable def ftypeRow (hi : BitVec 13) (field : BitVec 3) : Instr :=
  match field with
  | 0b000#3 => .ftypeBeacon hi
  | 0b001#3 => .ftypeData hi
  | 0b010#3 => .ftypeAck hi
  | 0b011#3 => .ftypeMacCommand hi
  | _ => .ftypeUnknown hi (field.extractLsb' 0 2)

/-- The row of table ACKRQ whose examined bit is `field`. -/
noncomputable def ackrqRow (hi : BitVec 10) (field : Bool) (lo : BitVec 5) : Instr :=
  match field with
  | false => .ackrqFalse hi lo
  | true => .ackrqTrue hi lo

/-- The row of table DAM whose examined bits are `field`. -/
noncomputable def damRow (hi : BitVec 4) (field : BitVec 2) (lo : BitVec 10) : Instr :=
  match field with
  | 0b00#2 => .damNone hi lo
  | 0b01#2 => .damUnknown hi lo
  | 0b10#2 => .damShort16 hi lo
  | 0b11#2 => .damLong64 hi lo

/-- The row of table SAM whose examined bits are `field`. -/
noncomputable def samRow (field : BitVec 2) (lo : BitVec 14) : Instr :=
  match field with
  | 0b00#2 => .samNone lo
  | 0b01#2 => .samUnknown lo
  | 0b10#2 => .samShort16 lo
  | 0b11#2 => .samLong64 lo

theorem ftypeRow_unknown (hi : BitVec 13) (lo : BitVec 2) : ftypeRow hi (0b1#1 ++ lo) = .ftypeUnknown hi lo :=
  two_bits_cases (P := fun lo => ftypeRow hi (0b1#1 ++ lo) = .ftypeUnknown hi lo) rfl rfl rfl rfl lo

/-- The two ways to read the word of row `Unknown`. -/
theorem append_flag_append (hi : BitVec 13) (lo : BitVec 2) : (hi ++ 0b1#1 ++ lo : BitVec 16) = hi ++ (0b1#1 ++ lo) :=
  BitVec.append_assoc

theorem decodeFtype_append (hi : BitVec 13) (field : BitVec 3) : decodeFtype (hi ++ field) = ftypeRow hi field := by
  have hlow : (hi ++ field).extractLsb' 0 2 = field.extractLsb' 0 2 :=
    BitVec.extractLsb'_append_eq_of_add_le (by decide)
  unfold decodeFtype
  rw [extract_append_low hi field, extract_top, hlow]
  rfl

theorem decodeAckrq_append (hi : BitVec 10) (field : Bool) (lo : BitVec 5) :
    decodeAckrq (hi ++ BitVec.ofBool field ++ lo) = ackrqRow hi field lo :=
  have hrow := congr (congrArg₂ ackrqRow (extract_above hi (BitVec.ofBool field) lo) (getLsbD_flag hi field lo))
    (extract_append_low (hi ++ BitVec.ofBool field) lo)
  hrow

theorem decodeDam_append (hi : BitVec 4) (field : BitVec 2) (lo : BitVec 10) :
    decodeDam (hi ++ field ++ lo) = damRow hi field lo :=
  have hrow := congr (congrArg₂ damRow (extract_above hi field lo) (extract_middle hi field lo))
    (extract_append_low (hi ++ field) lo)
  hrow

theorem decodeSam_append (field : BitVec 2) (lo : BitVec 14) : decodeSam (field ++ lo) = samRow field lo :=
  have hrow := congrArg₂ samRow (extract_top field lo) (extract_append_low field lo)
  hrow

/-! ### Slots -/

theorem fcfSlot_fcfOfBytes (t : Table) (low high : Byte) : (fcfSlot t (fcfOfBytes low high)).word = [low, high] :=
  congrArg₂ (fun x y => [x, y]) (extract_append_low high low) (extract_top high low)

theorem decode_fcfSlot_ftype (hi : BitVec 13) (field : BitVec 3) :
    decode (fcfSlot .ftype (hi ++ field)) = .ok (ftypeRow hi field) :=
  congrArg Except.ok ((congrArg decodeFtype (append_halves _)).trans (decodeFtype_append hi field))

theorem decode_fcfSlot_ackrq (hi : BitVec 10) (field : Bool) (lo : BitVec 5) :
    decode (fcfSlot .ackrq (hi ++ BitVec.ofBool field ++ lo)) = .ok (ackrqRow hi field lo) :=
  congrArg Except.ok ((congrArg decodeAckrq (append_halves _)).trans (decodeAckrq_append hi field lo))

theorem decode_fcfSlot_dam (hi : BitVec 4) (field : BitVec 2) (lo : BitVec 10) :
    decode (fcfSlot .dam (hi ++ field ++ lo)) = .ok (damRow hi field lo) :=
  congrArg Except.ok ((congrArg decodeDam (append_halves _)).trans (decodeDam_append hi field lo))

theorem decode_fcfSlot_sam (field : BitVec 2) (lo : BitVec 14) :
    decode (fcfSlot .sam (field ++ lo)) = .ok (samRow field lo) :=
  congrArg Except.ok ((congrArg decodeSam (append_halves _)).trans (decodeSam_append field lo))

/-! ### Decoding an encoded instruction -/

/-- The rows of the value tables go through their parts; an operation's selector is read back by evaluation. (`Instr` is
not recursive: `induction` is a case split whose branches carry no equation.) -/
theorem decode_encode (i : Instr) : decode (encode i) = .ok i := by
  induction i
  case ftypeBeacon hi => exact decode_fcfSlot_ftype hi 0b000#3
  case ftypeData hi => exact decode_fcfSlot_ftype hi 0b001#3
  case ftypeAck hi => exact decode_fcfSlot_ftype hi 0b010#3
  case ftypeMacCommand hi => exact decode_fcfSlot_ftype hi 0b011#3
  case ftypeUnknown hi lo =>
    have hrow := decode_fcfSlot_ftype hi (0b1#1 ++ lo)
    rwa [ftypeRow_unknown, ← append_flag_append] at hrow
  case ackrqFalse hi lo => exact decode_fcfSlot_ackrq hi false lo
  case ackrqTrue hi lo => exact decode_fcfSlot_ackrq hi true lo
  case damNone hi lo => exact decode_fcfSlot_dam hi 0b00#2 lo
  case damUnknown hi lo => exact decode_fcfSlot_dam hi 0b01#2 lo
  case damShort16 hi lo => exact decode_fcfSlot_dam hi 0b10#2 lo
  case damLong64 hi lo => exact decode_fcfSlot_dam hi 0b11#2 lo
  case samNone lo => exact decode_fcfSlot_sam 0b00#2 lo
  case samUnknown lo => exact decode_fcfSlot_sam 0b01#2 lo
  case samShort16 lo => exact decode_fcfSlot_sam 0b10#2 lo
  case samLong64 lo => exact decode_fcfSlot_sam 0b11#2 lo
  all_goals rfl

/-! ### Encoding a decoded slot -/

/-- What selector `n` decodes to, if it decodes, is encoded as a slot with that selector. -/
noncomputable def selectorEncodesBack (args : OperandPorts) (n : Nat) : Bool :=
  (decodeOpsel (BitVec.ofNat 5 n) args).toOption.all fun i =>
    decide ((encode i).table = .opsel ∧ (encode i).word = [BitVec.ofNat 8 n])

/-- R56, by its table of 32 selectors. -/
theorem selectorEncodesBack_of_lt (args : OperandPorts) {n : Nat} (hn : n < 32) : selectorEncodesBack args n = true := by
  have hall : (List.range 32).all (selectorEncodesBack args) = true := rfl
  exact List.all_eq_true.1 hall n (List.mem_range.2 hn)

theorem encode_decodeOpsel {b : Byte} (hb : b.toNat < 32) {args : OperandPorts} {i : Instr}
    (h : decodeOpsel (b.extractLsb' 0 5) args = .ok i) : (encode i).table = .opsel ∧ (encode i).word = [b] := by
  have hback : (encode i).table = .opsel ∧ (encode i).word = [BitVec.ofNat 8 b.toNat] :=
    of_decide_eq_true ((congrArg (fun r => r.toOption.all fun i => decide
      ((encode i).table = .opsel ∧ (encode i).word = [BitVec.ofNat 8 b.toNat])) h).symm.trans
        (selectorEncodesBack_of_lt args hb))
  rwa [BitVec.ofNat_toNat, BitVec.setWidth_eq] at hback

theorem encode_decodeFtype (fcf : BitVec 16) : encode (decodeFtype fcf) = fcfSlot .ftype fcf := by
  obtain ⟨hi, field, rfl⟩ := exists_append (v := 13) (w := 3) fcf
  have hunknown (lo : BitVec 2) : encode (ftypeRow hi (0b1#1 ++ lo)) = fcfSlot .ftype (hi ++ (0b1#1 ++ lo)) :=
    (congrArg encode (ftypeRow_unknown hi lo)).trans (congrArg (fcfSlot .ftype) (append_flag_append hi lo))
  exact (congrArg encode (decodeFtype_append hi field)).trans
    (three_bits_cases (P := fun field => encode (ftypeRow hi field) = fcfSlot .ftype (hi ++ field)) rfl rfl rfl rfl
      hunknown field)

theorem encode_decodeAckrq (fcf : BitVec 16) : encode (decodeAckrq fcf) = fcfSlot .ackrq fcf := by
  obtain ⟨hi, field, lo, rfl⟩ := exists_append_append (u := 10) (v := 1) (w := 5) fcf
  rcases BitVec.eq_zero_or_eq_one field with rfl | rfl
  · exact congrArg encode (decodeAckrq_append hi false lo)
  · exact congrArg encode (decodeAckrq_append hi true lo)

theorem encode_decodeDam (fcf : BitVec 16) : encode (decodeDam fcf) = fcfSlot .dam fcf := by
  obtain ⟨hi, field, lo, rfl⟩ := exists_append_append (u := 4) (v := 2) (w := 10) fcf
  exact (congrArg encode (decodeDam_append hi field lo)).trans
    (two_bits_cases (P := fun field => encode (damRow hi field lo) = fcfSlot .dam (hi ++ field ++ lo))
      rfl rfl rfl rfl field)

theorem encode_decodeSam (fcf : BitVec 16) : encode (decodeSam fcf) = fcfSlot .sam fcf := by
  obtain ⟨field, lo, rfl⟩ := exists_append (v := 2) (w := 14) fcf
  exact (congrArg encode (decodeSam_append field lo)).trans
    (two_bits_cases (P := fun field => encode (samRow field lo) = fcfSlot .sam (field ++ lo))
      rfl rfl rfl rfl field)

/-- A slot that decodes has the table and the word of what it decodes to. -/
def EncodesBack (slot : Slot) : Prop :=
  ∀ i, decode slot = .ok i → (encode i).table = slot.table ∧ (encode i).word = slot.word

theorem encodesBack_of_error {slot : Slot} {e : DecodeError} (h : decode slot = .error e) : EncodesBack slot :=
  fun _ hi => (Bool.false_ne_true (congrArg Except.isOk (h.symm.trans hi))).elim

theorem encodesBack_of_fcf {t : Table} {low high : Byte} {args : OperandPorts} {row : BitVec 16 → Instr}
    (henc : ∀ fcf, encode (row fcf) = fcfSlot t fcf)
    (hdec : decode ⟨t, [low, high], args⟩ = .ok (row (fcfOfBytes low high))) : EncodesBack ⟨t, [low, high], args⟩ := by
  intro i hi
  obtain rfl : row (fcfOfBytes low high) = i := Except.ok.inj (hdec.symm.trans hi)
  rw [henc]
  exact ⟨rfl, fcfSlot_fcfOfBytes t low high⟩

theorem encodesBack_opsel (b : Byte) (args : OperandPorts) : EncodesBack ⟨.opsel, [b], args⟩ := by
  by_cases hb : b.toNat < 32
  · exact fun i hi => encode_decodeOpsel hb ((if_pos hb).symm.trans hi)
  · exact encodesBack_of_error (if_neg hb)

theorem encodesBack (slot : Slot) : EncodesBack slot := by
  obtain ⟨_ | _ | _ | _ | _, _ | ⟨low, _ | ⟨high, _ | _⟩⟩, args⟩ := slot
  case opsel.cons.nil => exact encodesBack_opsel low args
  case ftype.cons.cons.nil => exact encodesBack_of_fcf encode_decodeFtype rfl
  case ackrq.cons.cons.nil => exact encodesBack_of_fcf encode_decodeAckrq rfl
  case dam.cons.cons.nil => exact encodesBack_of_fcf encode_decodeDam rfl
  case sam.cons.cons.nil => exact encodesBack_of_fcf encode_decodeSam rfl
  all_goals exact encodesBack_of_error rfl

/-- Settles O46: one direction by cases on the instruction, the other by the branches of the decoder. -/
theorem decodeEncodeAgree : Obligations.DecodeEncodeAgree :=
  ⟨decode_encode, encodesBack⟩

/-! ### Words written out (R56, R47) -/

/-- Settles O47: seventeen words, each read by the decoder. -/
theorem tableWordsDecode : Obligations.TableWordsDecode :=
  ⟨rfl, rfl, rfl, rfl, rfl, rfl, rfl, rfl, rfl, rfl, rfl, rfl, rfl, rfl, rfl, rfl, rfl⟩

/-! ### The step that runs a decoded operation (R129) -/

theorem fetchSlot_of_decode {run : Bool} {slot : Slot} {i : Instr} (hd : decode slot = .ok i)
    (hwf : i.wellFormed = true) (hr : run = true ∨ i = .start ∨ i = .stop) : fetchSlot run slot = .run i := by
  have hruns : (run || isLifecycle i) = true :=
    Bool.or_eq_true_iff.2 (hr.imp_right (Or.rec (congrArg isLifecycle) (congrArg isLifecycle)))
  unfold fetchSlot
  rw [hd]
  exact (if_pos hwf).trans (if_pos hruns)

/-- Settles O44: the slot is fetched as its instruction, which `step` executes on the state without the slot. -/
theorem stepRunsDecodedInstruction : Obligations.StepRunsDecodedInstruction := by
  intro s slot rest i hinp hd hwf hr
  have hfetch : s.fetch = .run i := by
    simp only [State.fetch, hinp]
    exact fetchSlot_of_decode hd hwf hr
  have htaken : s.taken = { s with inp := rest } := congrArg (fun inp => { s with inp := inp.tail }) hinp
  simp only [step, hfetch, htaken]

/-! ### The rows of the value tables are executed as their operations (R47 to R49) -/

theorem frameTypeOf_append (hi : BitVec 13) (field : BitVec 3) :
    frameTypeOf (hi ++ field) = frameTypeOf (0#13 ++ field) := by
  unfold frameTypeOf
  rw [extract_append_low hi field, extract_append_low 0#13 field]

theorem frameTypeOf_unknown (lo : BitVec 2) : frameTypeOf (0#13 ++ (0b1#1 ++ lo)) = .unknown :=
  two_bits_cases (P := fun lo => frameTypeOf (0#13 ++ (0b1#1 ++ lo)) = .unknown) rfl rfl rfl rfl lo

theorem exec_ftypeRow (s : State) (hi : BitVec 13) (field : BitVec 3) :
    exec (ftypeRow hi field) s = exec (.ftype (some (hi ++ field))) s := by
  have hunknown (lo : BitVec 2) : exec (ftypeRow hi (0b1#1 ++ lo)) s = exec (.ftype (some (hi ++ (0b1#1 ++ lo)))) s :=
    (congrArg (exec · s) (ftypeRow_unknown hi lo)).trans
      (congrArg (fun fcf => exec (.ftype (some fcf)) s) (append_flag_append hi lo))
  exact three_bits_cases (P := fun field => exec (ftypeRow hi field) s = exec (.ftype (some (hi ++ field))) s)
    rfl rfl rfl rfl hunknown field

theorem exec_ackrqRow (s : State) (hi : BitVec 10) (field : Bool) (lo : BitVec 5) :
    exec (ackrqRow hi field lo) s = exec (.ackrq (some (hi ++ BitVec.ofBool field ++ lo))) s := by
  cases field <;> rfl

theorem exec_damRow (s : State) (hi : BitVec 4) (field : BitVec 2) (lo : BitVec 10) :
    exec (damRow hi field lo) s = exec (.dam (some (hi ++ field ++ lo))) s :=
  two_bits_cases (P := fun field => exec (damRow hi field lo) s = exec (.dam (some (hi ++ field ++ lo))) s)
    rfl rfl rfl rfl field

theorem exec_samRow (s : State) (field : BitVec 2) (lo : BitVec 14) :
    exec (samRow field lo) s = exec (.sam (some (field ++ lo))) s :=
  two_bits_cases (P := fun field => exec (samRow field lo) s = exec (.sam (some (field ++ lo))) s) rfl rfl rfl rfl field

theorem exec_of_ftypeRow (s : State) {i : Instr} {t : FrameType} {hi : BitVec 13} {field : BitVec 3}
    (h : i = ftypeRow hi field ∧ t = frameTypeOf (0#13 ++ field)) :
    exec i s = .next (s.setHeader { s.draft.header with frameType := some t }) := by
  have hval : frameTypeOf (hi ++ field) = t := (frameTypeOf_append hi field).trans h.2.symm
  exact (congrArg (exec · s) h.1).trans ((exec_ftypeRow s hi field).trans (hval ▸ rfl))

theorem exec_of_ackrqRow (s : State) {i : Instr} {a : Bool} {hi : BitVec 10} {field : Bool} {lo : BitVec 5}
    (h : i = ackrqRow hi field lo ∧ a = field) :
    exec i s = .next (s.setHeader { s.draft.header with ackRequested := some a }) := by
  have hval : ackRequestOf (hi ++ BitVec.ofBool field ++ lo) = a := (getLsbD_flag hi field lo).trans h.2.symm
  exact (congrArg (exec · s) h.1).trans ((exec_ackrqRow s hi field lo).trans (hval ▸ rfl))

theorem exec_of_damRow (s : State) {i : Instr} {m : AddrMode} {hi : BitVec 4} {field : BitVec 2} {lo : BitVec 10}
    (h : i = damRow hi field lo ∧ m = addrModeOf field) :
    exec i s = .next (s.setHeader { s.draft.header with destAddrMode := some m }) := by
  have hval : destAddrModeOf (hi ++ field ++ lo) = m := (congrArg addrModeOf (extract_middle hi field lo)).trans h.2.symm
  exact (congrArg (exec · s) h.1).trans ((exec_damRow s hi field lo).trans (hval ▸ rfl))

theorem exec_of_samRow (s : State) {i : Instr} {m : AddrMode} {field : BitVec 2} {lo : BitVec 14}
    (h : i = samRow field lo ∧ m = addrModeOf field) :
    exec i s = .next (s.setHeader { s.draft.header with srcAddrMode := some m }) := by
  have hval : srcAddrModeOf (field ++ lo) = m := (congrArg addrModeOf (extract_top field lo)).trans h.2.symm
  exact (congrArg (exec · s) h.1).trans ((exec_samRow s field lo).trans (hval ▸ rfl))

/-- Settles O27: a row is its operation on an `fcf` that holds the row's field, and the operation reads that field
alone. -/
theorem frameTypeAndAckRows : Obligations.FrameTypeAndAckRows := by
  intro s
  refine ⟨fun hi t i h => ?ftype, fun hi lo a i h => ?ackrq⟩
  case ftype =>
    refine Exists.elim (p := fun field => i = ftypeRow hi field ∧ t = frameTypeOf (0#13 ++ field)) ?_
      fun _ => exec_of_ftypeRow s
    rcases h with h | h | h | h | ⟨lo, hrow, ht⟩
    · exact ⟨0b000#3, h⟩
    · exact ⟨0b001#3, h⟩
    · exact ⟨0b010#3, h⟩
    · exact ⟨0b011#3, h⟩
    · exact ⟨0b1#1 ++ lo, hrow.trans (ftypeRow_unknown hi lo).symm, ht.trans (frameTypeOf_unknown lo).symm⟩
  case ackrq => exact h.elim (exec_of_ackrqRow s (field := false)) (exec_of_ackrqRow s (field := true))

/-- Settles O28: a row is its operation on an `fcf` that holds the row's field, and the operation reads that field
alone. -/
theorem addressModeRows : Obligations.AddressModeRows := by
  intro s
  refine ⟨fun hi lo m i h => ?dam, fun lo m i h => ?sam⟩
  case dam =>
    exact (exists_two_bits (P := fun field => i = damRow hi field lo ∧ m = addrModeOf field) h).elim
      fun _ => exec_of_damRow s
  case sam =>
    exact (exists_two_bits (P := fun field => i = samRow field lo ∧ m = addrModeOf field) h).elim
      fun _ => exec_of_samRow s

/-! ### The fields of the header (R46, R50, R97, R98) -/

theorem map_slice_isSome {α : Type} {f : Bits → α} {s : Bits} {a n : Nat} :
    ((slice s a n).map f).isSome ↔ a + n ≤ s.length := by
  rw [Option.isSome_map, Option.isSome_iff_ne_none, ne_eq, slice_eq_none, Nat.not_lt]

/-- R50: the width of an address by its mode. -/
theorem eq_width {mode : Option AddrMode} {w : Nat}
    (h : w = if mode = some .short16 then 16 else if mode = some .long64 then 64 else 0) : w = width mode := by
  rcases mode with _ | _ | _ | _ | _ <;> exact h

/-- R97: an address is present when its mode announces one and all of its bits lie inside `hb`. -/
theorem addressAt_isSome (hb : Bits) (a : Nat) (mode : Option AddrMode) :
    (addressAt hb a mode).isSome ↔ 0 < width mode ∧ a + width mode ≤ hb.length := by
  have habsent : (none : Option Address).isSome ↔ 0 < 0 ∧ a + 0 ≤ hb.length :=
    iff_of_false Bool.false_ne_true fun h => Nat.lt_irrefl 0 h.1
  rcases mode with _ | _ | _ | _ | _
  case none => exact habsent
  case some.noAddress => exact habsent
  case some.unknown => exact habsent
  case some.short16 => exact map_slice_isSome.trans (and_iff_right (by decide)).symm
  case some.long64 => exact map_slice_isSome.trans (and_iff_right (by decide)).symm

theorem x5_mem_ite {p : Prop} [Decidable p] {l : List Condition} : .x5 ∈ (if p then [] else l) ↔ ¬ p ∧ .x5 ∈ l := by
  by_cases h : p
  · exact if_pos h ▸ iff_of_false List.not_mem_nil fun hn => hn.1 h
  · exact if_neg h ▸ (and_iff_right h).symm

theorem x5_mem_missing {hb : Bits} {last : Nat} : .x5 ∈ missing hb last ↔ hb.length < last :=
  x5_mem_ite.trans ((and_iff_left List.mem_cons_self).trans Nat.not_le)

theorem x5_mem_missingAddress {hb : Bits} {a : Nat} {mode : Option AddrMode} :
    .x5 ∈ missingAddress hb a mode ↔ 0 < width mode ∧ hb.length < a + width mode :=
  x5_mem_ite.trans (and_congr Nat.pos_iff_ne_zero.symm x5_mem_missing)

theorem lt_or_pos_and_lt_add (n a w : Nat) : n < a ∨ 0 < w ∧ n < a + w ↔ n < a + w := by
  refine ⟨fun h => h.elim (Nat.lt_add_right w) And.right, fun h => ?_⟩
  rcases Nat.eq_zero_or_pos w with rfl | hw
  · exact .inl h
  · exact .inr ⟨hw, h⟩

theorem x5_mem_append {l m : List Condition} {p q : Prop} (hl : .x5 ∈ l ↔ p) (hm : .x5 ∈ m ↔ q) :
    .x5 ∈ l ++ m ↔ p ∨ q :=
  List.mem_append.trans (or_congr hl hm)

/-- R124: X5 is noted exactly when a field that the header announces does not fit. -/
theorem x5_mem_headerNotes (hb : Bits) :
    .x5 ∈ headerNotes hb ↔
      hb.length < 40 + width (headerOf hb).destAddrMode + width (headerOf hb).srcAddrMode := by
  have hfixed : (hb.length < 16 ∨ hb.length < 24) ∨ hb.length < 40 ↔ hb.length < 40 :=
    or_iff_right_of_imp (Or.rec (Nat.lt_trans · (by decide)) (Nat.lt_trans · (by decide)))
  have hthree : .x5 ∈ missing hb 16 ++ missing hb 24 ++ missing hb 40 ↔ hb.length < 40 :=
    (x5_mem_append (x5_mem_append x5_mem_missing x5_mem_missing) x5_mem_missing).trans hfixed
  refine (x5_mem_append (x5_mem_append hthree x5_mem_missingAddress) x5_mem_missingAddress).trans ?_
  exact (or_congr_left (lt_or_pos_and_lt_add _ _ _)).trans (lt_or_pos_and_lt_add _ _ _)

theorem hdrPresentOf_hbOf {psdu : Bits} {L : Byte} (h : psdu.length = (L.toNat + 2) * 8) :
    hdrPresentOf (hbOf psdu L) = decide (2 ≤ L.toNat) := by
  have hle : 8 * L.toNat ≤ psdu.length :=
    (Nat.mul_comm 8 _).le.trans ((Nat.mul_le_mul_right 8 (Nat.le_add_right _ 2)).trans h.ge)
  have hlen : (hbOf psdu L).length = 8 * L.toNat := List.length_take_of_le hle
  exact (congrArg (fun n => decide (16 ≤ n)) hlen).trans
    (decide_eq_decide.2 (Nat.mul_le_mul_left_iff (n := 2) (show 0 < 8 by decide)))

/-- The header `old` with its first `k` fields, in the order of R98, overwritten by those of `new`. -/
noncomputable def overwritten (k : Nat) (old new : DecodedHeader) : DecodedHeader where
  fcf := if 1 ≤ k then new.fcf else old.fcf
  frameType := if 2 ≤ k then new.frameType else old.frameType
  ackRequested := if 3 ≤ k then new.ackRequested else old.ackRequested
  destAddrMode := if 4 ≤ k then new.destAddrMode else old.destAddrMode
  srcAddrMode := if 5 ≤ k then new.srcAddrMode else old.srcAddrMode
  sequenceNumber := if 6 ≤ k then new.sequenceNumber else old.sequenceNumber
  panId := if 7 ≤ k then new.panId else old.panId
  destAddress := if 8 ≤ k then new.destAddress else old.destAddress
  srcAddress := if 9 ≤ k then new.srcAddress else old.srcAddress

/-- The notes after HB and the first `k` of the operations that write `header`: HB, SEQ, PAN, DADDR and SADDR append. -/
noncomputable def notesAfter (k : Nat) (notes : List Condition) (hb : Bits) (header : DecodedHeader) : List Condition :=
  let n₀ := notes ++ missing hb 16
  let n₆ := if 6 ≤ k then n₀ ++ missing hb 24 else n₀
  let n₇ := if 7 ≤ k then n₆ ++ missing hb 40 else n₆
  let n₈ := if 8 ≤ k then n₇ ++ missingAddress hb 40 header.destAddrMode else n₇
  if 9 ≤ k then n₈ ++ missingAddress hb (40 + width header.destAddrMode) header.srcAddrMode else n₈

/-- The state `s` after operations that wrote the body's part of the draft and left `notes`. -/
noncomputable def withHeader (s : State) (hb : Bits) (header : DecodedHeader) (hdrPresent : Bool)
    (notes : List Condition) : State :=
  { s.setDraft { s.draft with hb := hb, hdrPresent := hdrPresent, header := header } with notes := notes }

/-- The state after HB and the first `k` of the operations that follow it in R98. -/
noncomputable def afterHeaderOps (psdu : Bits) (L : Byte) (s : State) (k : Nat) : State :=
  withHeader s (hbOf psdu L) (overwritten k s.draft.header (hdr psdu L)) (hdrPresentOf (hbOf psdu L))
    (notesAfter k s.notes (hbOf psdu L) (hdr psdu L))

theorem append_of_eq_append {n l m k : List Condition} (h : l = n ++ m) : l ++ k = n ++ (m ++ k) :=
  (congrArg (· ++ k) h).trans (List.append_assoc n m k)

theorem notesAfter_last (psdu : Bits) (L : Byte) (notes : List Condition) :
    notesAfter 9 notes (hbOf psdu L) (hdr psdu L) = notes ++ headerNotes (hbOf psdu L) :=
  append_of_eq_append (append_of_eq_append (append_of_eq_append (append_of_eq_append rfl)))

/-- Ten witnesses given at once, as R98's ten operations need. -/
theorem exists_ten {α : Type} {P : α → α → α → α → α → α → α → α → α → α → Prop} (a b c d e f g h i t : α)
    (hP : P a b c d e f g h i t) : ∃ a b c d e f g h i t, P a b c d e f g h i t :=
  ⟨a, b, c, d, e, f, g, h, i, t, hP⟩

/-- Settles O25: the presence of a field by the slice it is read from; and each operation writes its one field of the draft
and appends its own notes, so the ten in order leave the header of R98. -/
theorem fieldsPresentWhenTheyFit : Obligations.FieldsPresentWhenTheyFit := by
  refine ⟨fun hb wd ws hwd hws => ?present, fun psdu L s hlen => ⟨rfl, ?issued⟩⟩
  case present =>
    have hfcf : (fcfOf hb).isSome ↔ 16 ≤ hb.length := map_slice_isSome (a := 0) (n := 16)
    have hmapped {α : Type} (f : BitVec 16 → α) : ((fcfOf hb).map f).isSome ↔ 16 ≤ hb.length :=
      (iff_of_eq (congrArg (· = true) Option.isSome_map)).trans hfcf
    have hwd' := eq_width hwd
    have hws' := eq_width hws
    exact ⟨hfcf, hmapped _, hmapped _, hmapped _, hmapped _, map_slice_isSome, map_slice_isSome,
      hwd' ▸ addressAt_isSome hb 40 _, hwd' ▸ hws' ▸ addressAt_isSome hb _ _, hwd' ▸ hws' ▸ x5_mem_headerNotes hb⟩
  case issued =>
    exact exists_ten (afterHeaderOps psdu L s 0) (afterHeaderOps psdu L s 1) (afterHeaderOps psdu L s 2)
      (afterHeaderOps psdu L s 3) (afterHeaderOps psdu L s 4) (afterHeaderOps psdu L s 5) (afterHeaderOps psdu L s 6)
      (afterHeaderOps psdu L s 7) (afterHeaderOps psdu L s 8) (afterHeaderOps psdu L s 9)
      ⟨rfl, rfl, rfl, rfl, rfl, rfl, rfl, rfl, rfl, rfl,
        congrArg₂ (withHeader s (hbOf psdu L) (hdr psdu L)) (hdrPresentOf_hbOf hlen) (notesAfter_last psdu L s.notes)⟩

end Sys2Proof.Machine
end

section
/-! SUPPORT. Proofs of the statements on 42_frame_length_decoder.md: the arithmetic of `totalBits` (R78). -/

namespace Sys2Proof.Machine

-- Elaborated in parallel the theorem needs another thread's memory, which the check's limit does not always hold.
set_option Elab.async false

/-- Settles O11: the upper bounds by `L ≤ 255`, the lower one by the two CRC bytes, the shift as a multiplication by
`2^3`. -/
theorem lengthFormulaArithmetic : Obligations.LengthFormulaArithmetic := by
  refine ⟨fun K L => ⟨rfl, ?psdu, ?shift, ?least, frameBits_le K L⟩, rfl, rfl, rfl⟩
  case psdu => exact Nat.mul_le_mul_right 8 (Nat.add_le_add_right (Nat.le_of_lt_succ L.isLt) 2)
  case shift => exact (Nat.shiftLeft_eq _ 3).symm
  case least => exact Nat.add_le_add_left (Nat.mul_le_mul_right 8 (Nat.le_add_left 2 _)) (K + 8)

end Sys2Proof.Machine
end
